-- ==== Sys2Proof/Word.lean ====
section
/-! DEFINITION. The word types of the 2L48: the byte that both wires carry and the 16-bit word that tags, sequence
numbers and CRCs are made of. -/

namespace Sys2Proof

/-- One byte of a host frame or of a line frame (R31, R163). -/
abbrev Byte := BitVec 8

/-- A 16-bit word: a tag (R89), a report sequence number (R148) or a CRC (R32). -/
abbrev Half := BitVec 16

end Sys2Proof
end

