-- ==== Sys2Proof/Syntax.lean ====
section
/-! DEFINITION. The commands of the block: one constructor per row of spec/opcode_table.json. -/

namespace Sys2Proof

/-- The two field lines (About This Manual, Lines). -/
inductive LineId where
  | a
  | b
deriving DecidableEq, Repr, Inhabited

/-- The other line, the one not in question (About This Manual, Lines). -/
def LineId.other : LineId → LineId
  | .a => .b
  | .b => .a

/-- One step of the part, a row of the table. The operands are what the step takes from outside the part: the byte a
wire delivers and whether its stop bit was at space, the level of a pin, or which line or station a timer belongs to.
A request row carries none: its parameters stand in the body of the request at the head of the intake (R167, R168,
R184), and the row is the event in which the host link takes that head. -/
inductive Instr where
  /-- R40: power is applied or RESET asserted. -/
  | powerOn
  /-- R181: power-on reset ends; the levels of RATE1 and RATE0 are read. -/
  | powerOnResetEnd (rate1 rate0 : Bool)
  /-- R164: a host-link byte that starts no frame. -/
  | byteDiscarded (byte : Byte) (framingError : Bool)
  /-- R164, R165: the host-link byte with which a host frame is discarded. -/
  | hostFrameDiscarded (byte : Byte) (framingError : Bool)
  /-- R164: the host frame assembler's gap timer expires. -/
  | hostFrameGapTimeout
  /-- R167: the byte that completes a valid REQUEST frame. -/
  | requestArrival (byte : Byte)
  /-- R174: the byte that completes a valid ACK frame. -/
  | ack (byte : Byte)
  /-- R179. -/
  | identify
  /-- R171. -/
  | openSession
  /-- R172. -/
  | closeSession
  /-- R180. -/
  | restart
  /-- R180: the last byte of RESTART's response leaves. -/
  | restartTaken
  /-- R179. -/
  | readLinkStatus
  /-- R160. -/
  | readQueueStatus
  /-- R12. -/
  | defineStation
  /-- R13. -/
  | modifyStation
  /-- R14. -/
  | removeStation
  /-- R15. -/
  | enableStation
  /-- R16. -/
  | disableStation
  /-- R18. -/
  | readStation
  /-- R19. -/
  | clearStationErrors
  /-- R80. -/
  | requestPoll
  /-- R95. -/
  | submitCommand
  /-- R96. -/
  | submitBroadcast
  /-- R103. -/
  | cancelCommand
  /-- R126. -/
  | setLineMode
  /-- R129. -/
  | configureLine
  /-- R131. -/
  | resetLine
  /-- R134. -/
  | startScan
  /-- R138. -/
  | cancelScan
  /-- R139. -/
  | startLineTest
  /-- R142. -/
  | readLineStatus
  /-- R142. -/
  | clearLineCounters
  /-- R144. -/
  | setOutputs
  /-- R144. -/
  | clearOutputs
  /-- R144. -/
  | assignOutput
  /-- R177: the host pulls CTS low. -/
  | ctsFall
  /-- R177: the host lets CTS rise. -/
  | ctsRise
  /-- R177: the host transmitter chooses and starts a frame. -/
  | hostTransmitStart
  /-- R175, R177: the last byte of the host frame in progress leaves. -/
  | hostFrameEnd
  /-- R175. -/
  | ackTimerExpiry
  /-- R178. -/
  | helloTimerExpiry
  /-- R72. -/
  | schedulerChoice (line : LineId)
  /-- R44: the last character of the frame being sent leaves. -/
  | frameSent (line : LineId)
  /-- R25: the character in the shift path at an ending completes. -/
  | driverRelease (line : LineId)
  /-- R45. -/
  | guardEnd (line : LineId)
  /-- R46. -/
  | replyStartTimeout (line : LineId)
  /-- R34: a character with address mark 1 that begins a frame. -/
  | addressCharacterReceived (line : LineId) (byte : Byte) (framingError : Bool)
  /-- R34: a LENGTH character above 32. -/
  | lengthAbandon (line : LineId) (byte : Byte) (framingError : Bool)
  /-- R37: a character that belongs to no frame. -/
  | strayCharacter (line : LineId) (byte : Byte) (addressMark framingError : Bool)
  /-- R35: the inter-character timer expires. -/
  | intercharacterTimeout (line : LineId)
  /-- R36: the character that completes a line frame. -/
  | frameReceived (line : LineId) (byte : Byte) (framingError : Bool)
  /-- R48. -/
  | gapExpiry (line : LineId)
  /-- R79. -/
  | pollTimerExpiry (station : Nat)
  /-- R63. -/
  | holdoffTimerExpiry (station : Nat)
  /-- R82. -/
  | probeTimerExpiry (station : Nat)
  /-- R29. -/
  | stuckRaised (line : LineId)
  /-- R30. -/
  | stuckCleared (line : LineId)
  /-- R140. -/
  | testAwaitTimeout (line : LineId)
  /-- R140. -/
  | testGapExpiry (line : LineId)
  /-- R155. -/
  | noticeDrain
  /-- R35: a character with address mark 0 that is added to the frame in progress without ending it. -/
  | frameCharacterReceived (line : LineId) (byte : Byte) (framingError : Bool)
  /-- R27. -/
  | startBitAccepted (line : LineId)
  /-- R27. -/
  | glitch (line : LineId)
  /-- R29: the receive pin changes level; `mark` is its new level. -/
  | receiveInputLevelChange (line : LineId) (mark : Bool)
  /-- R44: a character of a frame other than its last leaves. -/
  | characterSent (line : LineId)
  /-- R164: a host-link byte that starts a frame or is added to one short of its end. -/
  | hostByteReceived (byte : Byte)
  /-- R164: a start bit is accepted on HRXD. -/
  | hostStartBitAccepted
  /-- R168, R184: the head of the intake has an unknown request code, or an empty body. -/
  | unknownRequestCode
deriving DecidableEq, Repr

end Sys2Proof
end

