-- ==== Sys2Proof/Decode.lean ====
section
/-! DEFINITION. Decoding. The 2L48 is a block, not a processor: the rows of spec/opcode_table.json carry no bits, so no
word spells a command. (The byte layouts that do exist, of host frames, request bodies and line frames, are decoded in
Machine/Operands.lean and Machine/Frames.lean.) -/

namespace Sys2Proof

/-- The command a word of `nbits` bits spells by the table: none, since no row of the table gives bits. -/
def decodeTableWord (nbits w : Nat) : Option Instr :=
  match nbits, w with
  | _, _ => none

end Sys2Proof
end

