-- ==== Sys2Proof/Config.lean ====
section
/-! DEFINITION. What one 2L48 fixes: the capacities and codes of R179 and R186, and the free values for the bytes whose
contents the manual does not state. -/

namespace Sys2Proof.Config

/-- Station entries (R1). -/
def stations : Nat := 48
/-- Command records in the pool (R89). -/
def commandRecords : Nat := 64
/-- Live records one station may have (R94). -/
def recordsPerStation : Nat := 4
/-- Slots of the report queue (R145). -/
def reportSlots : Nat := 128
/-- Request frames the intake holds (R167). -/
def intakeSize : Nat := 4
/-- Entries of the response cache (R169). -/
def cacheSize : Nat := 4
/-- Responses the response queue holds (R170). -/
def responseQueueSize : Nat := 8
/-- Characters of the longest line frame payload (R31). -/
def maxPayload : Nat := 32
/-- The HELLO timer's period in ms (R178). -/
def helloPeriod : Nat := 1000
/-- The host frame assembler's gap timer, in host-link character times (R164). -/
def hostGap : Nat := 10
/-- The clock on XIN, in Hz (section 2.8). -/
def clockHz : Nat := 14745600
/-- Vendor code of IDENTIFY (R186). -/
def vendorCode : Nat := 0x4C4B
/-- Part code of IDENTIFY (R186). -/
def partCode : Nat := 0x2B30
/-- Revision of the part the manual describes (R186). -/
def revision : Nat := 1

/-- DESIGN CHOICE (assumption 4). A byte the manual leaves open: READ_LINE_STATUS view 0 carries a target address and
an attempt at offsets 44 and 45, and no rule states them while no exchange is in flight (R142, R186). The machine
applies this to a counter it advances, so every such byte is a fresh free value. -/
opaque freeByte : Nat → Byte

end Sys2Proof.Config
end

