-- ==== Sys2Proof/Machine/State.lean ====
section
/-! DEFINITION. The state of the 2L48 as plain data: the station table, the two line columns, the command pool, the
report queue, the host link, the discrete outputs, and the queue of commands waiting to be taken. -/

namespace Sys2Proof.Machine

/-! ### The station table (Chapter 1) -/

/-- R5. -/
inductive StationState where
  | disabled | probing | online | suspect | offline
deriving DecidableEq, Repr

/-- R8: the failure kinds of Chapter 3, with BUSY_LIMIT, which no attempt fails with. -/
inductive FailureKind where
  | timeout | truncated | framing | check | wrongResponder | badKind | toggle | nak | busyLimit
deriving DecidableEq, Repr

/-- R10: the cause of a station notice. -/
inductive StationCause where
  | define | enable | disable | reached | failing | recovered | lost | failover | lineReset
deriving DecidableEq, Repr

/-- R9: the six station counters, each 0 to 65535. -/
structure StationCounters where
  completed : Nat
  attemptsFailed : Nat
  busyReplies : Nat
  dataReports : Nat
  lineSwitches : Nat
  probesSent : Nat
deriving DecidableEq, Repr

/-- One defined entry of the station table (R2, R3, R8, R9, R10). -/
structure Station where
  /-- R2: the bus address, 1 to 250. -/
  address : Nat
  home : LineId
  alternate : Option LineId
  /-- R2: the line that carries the station at present. -/
  current : LineId
  /-- R2: ms, 0 or 10 to 60000. -/
  pollPeriod : Nat
  retryLimit : Nat
  offlineThreshold : Nat
  state : StationState
  toggle : Bool
  /-- R109: consecutive failures, 0 to 15. -/
  failures : Nat
  /-- R63: 0 to 15. -/
  busyStreak : Nat
  pollDue : Bool
  /-- R78: stopped, or the remaining ms. -/
  pollTimer : Option Nat
  /-- R63: stopped, or the remaining ms. -/
  holdoffTimer : Option Nat
  /-- R82: stopped, or the remaining ms; 0 is expired. -/
  probeTimer : Option Nat
  pendingDisable : Bool
  /-- R8: the sticky error set; bit k − 1 stands for the failure kind of code k (R186). -/
  sticky : Half
  lastFailure : Option FailureKind
  counters : StationCounters
  /-- R10. -/
  notice : Bool
  /-- R10: 0 to 255. -/
  changeCount : Nat
  lastCause : Option StationCause
deriving DecidableEq, Repr

/-! ### The command pool (Chapter 5) -/

/-- R92. -/
inductive RecordState where
  | queued | inFlight
deriving DecidableEq, Repr

/-- A live command record (R89). A record with a station is of kind STATION, one without of kind BROADCAST. -/
structure CommandRecord where
  tag : Half
  station : Option Nat
  line : LineId
  acceptance : BitVec 32
  payload : List Byte
  state : RecordState
  attempts : Nat
  lastFailure : Option FailureKind
  transmitted : Bool
  cancelPending : Bool
deriving DecidableEq, Repr

/-- The pool: its live records in acceptance order, and the acceptance count (R89, R90). The order list of a line is
the QUEUED records of that line in this order (R91). -/
structure Pool where
  records : List CommandRecord
  acceptCount : BitVec 32
deriving DecidableEq, Repr

/-- R100: the ten outcomes. -/
inductive CommandOutcome where
  | done | rejected | sent | failed | stationBusy | cancelled | stationLost | resync | removed | disabled
deriving DecidableEq, Repr

/-! ### The line column (Chapters 2, 3, 4 and 7) -/

/-- R125. -/
inductive LineMode where
  | off | active | monitor | test
deriving DecidableEq, Repr

/-- R127: the cause of a line notice. -/
inductive LineCause where
  | modeSet | testStarted | testEnded | lineReset | stuck | stuckCleared
deriving DecidableEq, Repr

/-- R128: the eight line rates, in bit/s. -/
inductive LineRate where
  | r1200 | r2400 | r4800 | r9600 | r19200 | r38400 | r57600 | r115200
deriving DecidableEq, Repr

/-- R128: the ten parameters. Timeouts are in character times, intervals in ms. -/
structure LineConfig where
  rate : LineRate
  stopBits : Nat
  replyStart : Nat
  intercharacter : Nat
  lineGap : Nat
  probeInterval : Nat
  busyHoldoff : Nat
  busyLimit : Nat
  commandStreak : Nat
  scanStreak : Nat
deriving DecidableEq, Repr

/-- R39: the ten line counters, each 0 to 65535. -/
structure LineCounters where
  framesSent : Nat
  goodFrames : Nat
  checkErrors : Nat
  framingErrors : Nat
  glitches : Nat
  abandonedFrames : Nat
  strayCharacters : Nat
  stuckEvents : Nat
  capturesLost : Nat
  attemptsFailed : Nat
deriving DecidableEq, Repr

/-- The partial frame of a frame assembler in COLLECTING (R34, R35): the data bytes received since and with the
address character, the framing flag, and the inter-character timer, stopped or started with so many character times. -/
structure PartialFrame where
  chars : List Byte
  framing : Bool
  timer : Option Nat
deriving DecidableEq, Repr

/-- R41. -/
inductive ExchangeKind where
  | poll | command | probe | broadcast | rollCall
deriving DecidableEq, Repr

/-- R41: the phases of an exchange in flight; IDLE is the empty record. -/
inductive Phase where
  | transmit | guard | await | receive | gap
deriving DecidableEq, Repr

/-- R33: the seven kinds of reply. -/
inductive ReplyKind where
  | data | empty | done | reject | busy | checkFail | present
deriving DecidableEq, Repr

/-- R41: the decided outcome of an exchange: an accepted reply (R56 to R58, R62), every attempt failed (R61), a
broadcast sent (R59), or a roll call's result (R60). -/
inductive ExchangeOutcome where
  | accepted (kind : ReplyKind)
  | failed
  | sent
  | present
  | absent
deriving DecidableEq, Repr

/-- The exchange record of R41. `frame` is the data bytes of the frame every attempt sends (R55), and `timer` the
reply-start or gap timer, stopped or started with so many character times (R46, R48). -/
structure Exchange where
  kind : ExchangeKind
  station : Option Nat
  target : Nat
  record : Option Half
  holdsReservation : Bool
  attempt : Nat
  toggleSent : Bool
  phase : Phase
  charsSent : Nat
  lastFailure : Option FailureKind
  outcome : Option ExchangeOutcome
  frame : List Byte
  timer : Option Nat
deriving DecidableEq, Repr

/-- A running scan (R133); `next` past `last` when no address remains. -/
structure Scan where
  first : Nat
  last : Nat
  next : Nat
  responders : List Nat
  rollCall : Bool
deriving DecidableEq, Repr

/-- R139. -/
inductive TestPhase where
  | sending | awaiting | gap
deriving DecidableEq, Repr

/-- A running line test (R139, R140). `charsSent` counts the characters of frame `index` that have left, and `delivered`
says that the receiver has taken from the loop the one that entered the shift path last; `handed` is what was handed up
while frame `index` was still being sent: whether it matches; `timer` is the AWAITING or GAP timer, started with so many
character times. -/
structure LineTest where
  count : Nat
  index : Nat
  framesSent : Nat
  framesMatched : Nat
  firstMismatch : Option Nat
  phase : TestPhase
  charsSent : Nat
  delivered : Bool
  handed : Option Bool
  timer : Option Nat
deriving DecidableEq, Repr

/-- R22: a line character: its data byte and its address mark. -/
structure LineCharacter where
  byte : Byte
  addressMark : Bool
deriving DecidableEq, Repr

/-- What waits for the character in the transmitter's shift path to complete (R25, R65, R69, R141): the rest of a
SET_LINE_MODE or of a RESET_LINE, or, after RESTART, the character alone, and with it the release of the driver. The
exchange or line test whose character it is has then ended, so that character stands here; `looped` when it was a line
test's, which goes to the internal loop and not to the transmit pin (R23). -/
inductive LineEnding where
  | modeChange (mode : LineMode)
  | lineReset
  | restart (completing : LineCharacter) (looped : Bool)
deriving DecidableEq, Repr

/-- One line column: line port, exchange engine and line scheduler. -/
structure Line where
  mode : LineMode
  config : LineConfig
  counters : LineCounters
  /-- R29. -/
  stuck : Bool
  /-- R24: the driver-enable pin, ADE or BDE; true is high. -/
  driver : Bool
  /-- R29: the level of the receive pin, ARXD or BRXD; true is mark. -/
  rxMark : Bool
  /-- R26, R28: the receiver waits for its input to return to mark before it seeks an edge. -/
  awaitsMark : Bool
  /-- R34: none is SEEKING, a partial frame is COLLECTING. -/
  assembler : Option PartialFrame
  /-- R25. -/
  ending : Option LineEnding
  /-- R127. -/
  notice : Bool
  noticeCause : Option LineCause
  /-- R133. -/
  scan : Option Scan
  /-- R139. -/
  test : Option LineTest
  /-- R41: none is the empty record, phase IDLE. -/
  exchange : Option Exchange
  /-- R70. -/
  walk : Option Nat
  /-- R70. -/
  commandCount : Nat
  /-- R70. -/
  scanCount : Nat
  /-- R81: the probe list, head first. -/
  probeList : List Nat
deriving DecidableEq, Repr

/-! ### The report queue (Chapter 8) -/

/-- R137. -/
inductive ScanStatus where
  | complete | cancelled | modeChange | lineFault | lineReset
deriving DecidableEq, Repr

/-- R141. -/
inductive TestStatus where
  | complete | aborted
deriving DecidableEq, Repr

/-- The contents of a report (R147). -/
inductive Report where
  | stationData (station : Nat) (data : List Byte)
  | commandDone (tag : Half) (station : Option Nat) (outcome : CommandOutcome) (transmitted : Bool) (attempts : Nat)
      (lastFailure : Option FailureKind) (reply : List Byte)
  | stationState (station : Nat) (state : StationState) (current : LineId) (changeCount : Nat)
      (cause : Option StationCause)
  | lineState (line : LineId) (mode : LineMode) (stuck : Bool) (cause : Option LineCause)
  | scanDone (line : LineId) (status : ScanStatus) (responders : List Nat)
  | testDone (line : LineId) (status : TestStatus) (framesSent framesMatched : Nat) (firstMismatch : Option Nat)
  | capture (line : LineId) (address : Byte) (kind : Option Nat) (toggle : Option Bool) (length : Option Nat)
      (payload : List Byte) (framing check abandoned : Bool)
deriving DecidableEq, Repr

/-- R145. -/
structure Entry where
  seq : Half
  report : Report
  sent : Bool
deriving DecidableEq, Repr

/-- R145, R148, R150. Entries stand head first. -/
structure ReportQueue where
  entries : List Entry
  reservations : Nat
  seqCounter : Half
deriving DecidableEq, Repr

/-! ### The host link (Chapter 9) -/

/-- The partial frame of the host frame assembler (R164): the bytes received after SYNC, and the gap timer, stopped or
started with so many character times. -/
structure HostPartial where
  bytes : List Byte
  timer : Option Nat
deriving DecidableEq, Repr

/-- A REQUEST in the intake (R167): its number, its CRC and its body, whose first byte is the request code. -/
structure Request where
  number : Byte
  crc : Half
  body : List Byte
deriving DecidableEq, Repr

/-- A response waiting for the transmitter (R170): the number of the request answered and the body. `restarts` marks
RESTART's own response, at whose end the restart is taken (R180). -/
structure Response where
  number : Byte
  body : List Byte
  restarts : Bool
deriving DecidableEq, Repr

/-- R169. -/
structure CacheEntry where
  number : Byte
  crc : Half
  body : List Byte
deriving DecidableEq, Repr

/-- R171. -/
inductive SessionState where
  | closed | opened | stalled
deriving DecidableEq, Repr

/-- The session record (R171, R173). -/
structure Session where
  state : SessionState
  window : Nat
  timeout : Nat
  retransmissions : Nat
  /-- R175: stopped, or the remaining ms. -/
  ackTimer : Option Nat
  /-- R173: the resend position of the run in progress. -/
  run : Option Half
deriving DecidableEq, Repr

/-- R166: the nine link counters, each 0 to 65535. -/
structure LinkCounters where
  bytesDiscarded : Nat
  badFrames : Nat
  frameTimeouts : Nat
  duplicateRequests : Nat
  backoffs : Nat
  responsesDropped : Nat
  strayAcks : Nat
  retransmissionRuns : Nat
  stalls : Nat
deriving DecidableEq, Repr

/-- R177: what the frame on the wire is. -/
inductive HostFrameKind where
  | response
  | restartResponse
  | report
  | hello
deriving DecidableEq, Repr

/-- The host frame in progress on HTXD (R163, R177). -/
structure HostFrame where
  kind : HostFrameKind
  bytes : List Byte
deriving DecidableEq, Repr

/-- R178. -/
inductive HelloCause where
  | powerOn | restart
deriving DecidableEq, Repr

/-- The host link. -/
structure Link where
  /-- R162: the strap reading, true is high. -/
  rate1 : Bool
  rate0 : Bool
  /-- R177: the level of CTS; true is low, which permits a frame to start. -/
  ctsLow : Bool
  /-- R162: the receiver waits for HRXD to return to mark before it seeks an edge. -/
  awaitsMark : Bool
  /-- R164: none is SEEKING. -/
  assembler : Option HostPartial
  intake : List Request
  cache : List CacheEntry
  responses : List Response
  session : Session
  counters : LinkCounters
  /-- R177: the frame in progress. -/
  sending : Option HostFrame
  helloWaiting : Bool
  helloRepeat : Bool
  helloTimer : Option Nat
  helloCause : HelloCause
  /-- R180. -/
  restartWaiting : Bool
  /-- R65, R126, R131: the request taken whose steps wait for a driver release. -/
  held : Option Request
deriving DecidableEq, Repr

/-! ### The discrete outputs (R143) -/

/-- R143. -/
inductive OutputFunction where
  | latch | stuckA | stuckB | sessionStalled | reportsUnsent
deriving DecidableEq, Repr

/-- R143. -/
structure Output where
  latch : Bool
  function : OutputFunction
deriving DecidableEq, Repr

/-! ### The whole part -/

/-- The state of the part and the commands waiting for it. -/
structure State where
  /-- R40: power-on reset is in force. -/
  inReset : Bool
  /-- R1: one place for each station number; none is an undefined entry. -/
  stations : Vector (Option Station) 48
  lineA : Line
  lineB : Line
  pool : Pool
  queue : ReportQueue
  link : Link
  outputs : Vector Output 4
  /-- The model's own field, not the spec's: how many free bytes have been used (Config.freeByte). -/
  freeCount : Nat
  /-- The commands waiting, first in, first out. -/
  pending : List Instr
deriving DecidableEq, Repr

/-- Why the part would stop. The manual describes no event that stops it, so there is no constructor: no step of this
model ends in a fault. -/
inductive Fault where
deriving DecidableEq, Repr

/-- Why a command has no meaning in the model. -/
inductive Refusal where
  /-- Raised by `exec` for a row of the table that is not modelled yet; safe, since no claim can be proved of it. No
  arm of `exec` raises it: every row is modelled. -/
  | notModelled (mnemonic : String)
deriving DecidableEq, Repr

/-! ### Reset values -/

/-- R128: the power-on values. -/
def LineConfig.powerOn : LineConfig :=
  { rate := .r9600, stopBits := 1, replyStart := 20, intercharacter := 3, lineGap := 4, probeInterval := 2000,
    busyHoldoff := 50, busyLimit := 8, commandStreak := 4, scanStreak := 4 }

/-- R39. -/
def LineCounters.zero : LineCounters := ⟨0, 0, 0, 0, 0, 0, 0, 0, 0, 0⟩

/-- R9. -/
def StationCounters.zero : StationCounters := ⟨0, 0, 0, 0, 0, 0⟩

/-- R166. -/
def LinkCounters.zero : LinkCounters := ⟨0, 0, 0, 0, 0, 0, 0, 0, 0⟩

/-- A line after power-on (R30, R34, R39, R41, R70, R81, R125, R127, R128, R133, R139). The level of the receive pin
comes from outside: mark, the idle level of section 2.8 (assumption 2). -/
def Line.powerOn : Line :=
  { mode := .off, config := .powerOn, counters := .zero, stuck := false, driver := false, rxMark := true,
    awaitsMark := false, assembler := none, ending := none, notice := false, noticeCause := none, scan := none,
    test := none, exchange := none, walk := none, commandCount := 0, scanCount := 0, probeList := [] }

/-- R171: the session after power-on. -/
def Session.powerOn : Session :=
  { state := .closed, window := 4, timeout := 500, retransmissions := 0, ackTimer := none, run := none }

/-- The host link right after power-on reset has ended (R181): HELLO POWER_ON waits and its timer runs. The straps and
CTS are input pins: straps low and CTS low (assumption 2). -/
def Link.powerOn : Link :=
  { rate1 := false, rate0 := false, ctsLow := true, awaitsMark := false, assembler := none, intake := [], cache := [], responses := [],
    session := .powerOn, counters := .zero, sending := none, helloWaiting := true, helloRepeat := true,
    helloTimer := some Config.helloPeriod, helloCause := .powerOn, restartWaiting := false, held := none }

/-- The part right after power-on reset has ended (R40, R181): no station, both lines OFF, pool and report queue
empty, session CLOSED, every output LATCH with latch 0. -/
def State.reset : State :=
  { inReset := false, stations := Vector.replicate 48 none, lineA := .powerOn, lineB := .powerOn,
    pool := ⟨[], 0⟩, queue := ⟨[], 0, 0⟩, link := .powerOn, outputs := Vector.replicate 4 ⟨false, .latch⟩,
    freeCount := 0, pending := [] }

/-! ### Access -/

/-- The column of a line. -/
def State.line (s : State) : LineId → Line
  | .a => s.lineA
  | .b => s.lineB

/-- Change the column of one line. -/
def State.onLine (s : State) (l : LineId) (f : Line → Line) : State :=
  match l with
  | .a => { s with lineA := f s.lineA }
  | .b => { s with lineB := f s.lineB }

/-- The entry of a station number: none for an undefined entry and for a number above 47 (R1). -/
def State.station (s : State) (n : Nat) : Option Station :=
  if h : n < 48 then s.stations[n] else none

/-- Write the entry of a station number; a number above 47 names no entry (R1). -/
def State.setStation (s : State) (n : Nat) (e : Option Station) : State :=
  if h : n < 48 then { s with stations := s.stations.set n e } else s

/-- Change a defined entry; an undefined one stays as it is. -/
def State.onStation (s : State) (n : Nat) (f : Station → Station) : State :=
  match s.station n with
  | none => s
  | some e => s.setStation n (some (f e))

/-- Change the pool. -/
def State.onPool (s : State) (f : Pool → Pool) : State := { s with pool := f s.pool }

/-- Change the report queue. -/
def State.onQueue (s : State) (f : ReportQueue → ReportQueue) : State := { s with queue := f s.queue }

/-- Change the host link. -/
def State.onLink (s : State) (f : Link → Link) : State := { s with link := f s.link }

/-- Change the session record. -/
def State.onSession (s : State) (f : Session → Session) : State :=
  { s with link := { s.link with session := f s.link.session } }

end Sys2Proof.Machine
end

