-- ==== Sys2Proof/Machine/Characters.lean ====
section
/-! DEFINITION. Characters on the wires: the levels that a byte is sent as, and the byte that sampled levels are (R22,
R28, R162). A level is true at mark, which is high on every transmit and receive pin (section 2.8). -/

namespace Sys2Proof.Machine

/-- R22, R162: the eight data bits, least significant bit first. -/
def dataBits (byte : Byte) : List Bool := (List.range 8).map byte.getLsbD

/-- R28: the byte whose data bits were sampled, least significant bit first. -/
def dataByte (samples : List Bool) : Byte := BitVec.ofNat 8 (samples.foldr (fun bit n => bit.toNat + 2 * n) 0)

/-! ### Line characters -/

/-- R22: the levels of a line character, one a bit time: a start bit at space, the data bits, the address mark, and the
stop bits at mark. -/
def LineCharacter.levels (stopBits : Nat) (c : LineCharacter) : List Bool :=
  false :: (dataBits c.byte ++ c.addressMark :: List.replicate stopBits true)

/-- R28: what the receiver makes of its samples after an accepted start bit, the data bits, the address mark and the
first stop bit: the character, and whether its stop bit was at space. Levels after those ten are ignored (R22). -/
def receivedCharacter (samples : List Bool) : LineCharacter × Bool :=
  (⟨dataByte (samples.take 8), samples.getD 8 true⟩, !samples.getD 9 true)

/-- R128: the line rates, in bit/s. -/
def LineRate.bitsPerSecond : LineRate → Nat
  | .r1200 => 1200 | .r2400 => 2400 | .r4800 => 4800 | .r9600 => 9600 | .r19200 => 19200 | .r38400 => 38400
  | .r57600 => 57600 | .r115200 => 115200

/-- R22: a character's length in bit times, 11 with one stop bit and 12 with two. -/
def LineConfig.characterBits (c : LineConfig) : Nat := 10 + c.stopBits

/-- R22: the line's character time, in periods of the part's clock, which every line rate divides (section 2.8). -/
def LineConfig.characterClocks (c : LineConfig) : Nat := c.characterBits * (Config.clockHz / c.rate.bitsPerSecond)

/-! ### Host-link characters -/

/-- R162: the levels of a host-link character: a start bit, the data bits and one stop bit. -/
def hostCharacterLevels (byte : Byte) : List Bool := false :: (dataBits byte ++ [true])

/-- R162: what the receiver makes of its samples after a start bit: the byte, and whether its stop bit was at space. -/
def receivedHostCharacter (samples : List Bool) : Byte × Bool := (dataByte (samples.take 8), !samples.getD 8 true)

/-- R162, R164: the levels of a host frame on HTXD, its characters back to back. -/
def HostFrame.levels (f : HostFrame) : List Bool := f.bytes.flatMap hostCharacterLevels

end Sys2Proof.Machine
end

