-- ==== Sys2Proof/Machine/Bytes.lean ====
section
/-! DEFINITION. Counters that stop, byte order, and the CRC that both kinds of frame carry. -/

namespace Sys2Proof.Machine

/-- A counter the host can read: it rises by one and stops at 65535 (About This Manual, Counters). -/
def bump (n : Nat) : Nat := min (n + 1) 65535

/-- A count that stops at 255 (R10, R43, R97). -/
def bump255 (n : Nat) : Nat := min (n + 1) 255

/-- A count that stops at 15 (R63, R109). -/
def bump15 (n : Nat) : Nat := min (n + 1) 15

/-- A number as one byte. -/
def b8 (n : Nat) : Byte := BitVec.ofNat 8 n

/-- A flag bit of a response or report at a bit position (R182). -/
def flagBit (b : Bool) (position : Nat) : Nat := if b then 2 ^ position else 0

/-- Two bytes of a host frame, least significant first (R182). -/
def le16 (n : Nat) : List Byte := [b8 n, b8 (n / 256)]

/-- The 16-bit field at an offset, least significant byte first (R182). -/
def u16At (body : List Byte) (offset : Nat) : Nat :=
  (body.getD offset 0).toNat + 256 * (body.getD (offset + 1) 0).toNat

/-- The one-byte field at an offset. -/
def u8At (body : List Byte) (offset : Nat) : Nat := (body.getD offset 0).toNat

/-- One bit of the CRC register's shift: x^16 + x^12 + x^5 + 1, most significant bit first (R32). -/
def crcShift (c : Half) : Half :=
  if c.msb then (c <<< 1) ^^^ 0x1021#16 else c <<< 1

/-- One byte taken into the CRC register (R32). -/
def crcByte (c : Half) (b : Byte) : Half :=
  let c := c ^^^ (b.setWidth 16 <<< 8)
  crcShift (crcShift (crcShift (crcShift (crcShift (crcShift (crcShift (crcShift c)))))))

/-- The CRC of a run of bytes: register 0xFFFF at the start, no inversion at the end (R32, R163). -/
def crc16 (bytes : List Byte) : Half := bytes.foldl crcByte 0xFFFF#16

/-- The most significant byte of a 16-bit word. -/
def highByte (h : Half) : Byte := (h >>> 8).setWidth 8

/-- The least significant byte of a 16-bit word. -/
def lowByte (h : Half) : Byte := h.setWidth 8

/-- A 16-bit word from its two bytes. -/
def halfOf (high low : Byte) : Half := (high.setWidth 16 <<< 8) ||| low.setWidth 16

end Sys2Proof.Machine
end

