-- ==== Sys2Proof/Machine/Operands.lean ====
section
/-! DEFINITION. The operand forms: the codes of Chapter 10 for every value a body carries, read and written, and the
parameters of the request bodies. -/

namespace Sys2Proof.Machine

/-! ### Response status (R188) -/

/-- R188: the response status codes. -/
inductive Status where
  | ok | accepted | backoff | noSession | badRequest | badParameter | noStation | stationExists | addressInUse
  | stationDisabled | stationOffline | stationBusy | tagInUse | unknownTag | inFlight | stationQueueFull | poolFull
  | noReportSpace | lineMode | lineBusy | noScan
deriving DecidableEq, Repr

/-- R188. -/
def Status.code : Status → Byte
  | .ok => 0x00 | .accepted => 0x01 | .backoff => 0x02 | .noSession => 0x03 | .badRequest => 0x04
  | .badParameter => 0x05 | .noStation => 0x06 | .stationExists => 0x07 | .addressInUse => 0x08
  | .stationDisabled => 0x09 | .stationOffline => 0x0A | .stationBusy => 0x0B | .tagInUse => 0x0C
  | .unknownTag => 0x0D | .inFlight => 0x0E | .stationQueueFull => 0x0F | .poolFull => 0x10
  | .noReportSpace => 0x11 | .lineMode => 0x12 | .lineBusy => 0x13 | .noScan => 0x14

/-! ### Values written into bodies (R182, R188) -/

/-- R182: 0 for line A, 1 for line B. -/
def lineCode : LineId → Nat
  | .a => 0
  | .b => 1

/-- R182: 0xFF for none. -/
def lineCode? : Option LineId → Nat
  | none => 0xFF
  | some l => lineCode l

/-- R182: a station number, walk position or index, 0xFF for none. -/
def orNone : Option Nat → Nat
  | none => 0xFF
  | some n => n

/-- R182: remaining milliseconds, 0xFFFF when stopped. -/
def timerCode : Option Nat → Nat
  | none => 0xFFFF
  | some t => t

/-- R188. -/
def StationState.code : StationState → Nat
  | .disabled => 0 | .probing => 1 | .online => 2 | .suspect => 3 | .offline => 4

/-- R188. -/
def FailureKind.code : FailureKind → Nat
  | .timeout => 1 | .truncated => 2 | .framing => 3 | .check => 4 | .wrongResponder => 5 | .badKind => 6
  | .toggle => 7 | .nak => 8 | .busyLimit => 9

/-- R182: 0 means none. -/
def failureCode : Option FailureKind → Nat
  | none => 0
  | some k => k.code

/-- R8, R186: the sticky error set with a kind added: bit k − 1 for the kind of code k. -/
def addSticky (set : Half) (k : FailureKind) : Half := set ||| (1#16 <<< (k.code - 1))

/-- R188. -/
def CommandOutcome.code : CommandOutcome → Nat
  | .done => 1 | .rejected => 2 | .sent => 3 | .failed => 4 | .stationBusy => 5 | .cancelled => 6
  | .stationLost => 7 | .resync => 8 | .removed => 9 | .disabled => 10

/-- R188; 0 means none. -/
def stationCauseCode : Option StationCause → Nat
  | none => 0 | some .define => 1 | some .enable => 2 | some .disable => 3 | some .reached => 4
  | some .failing => 5 | some .recovered => 6 | some .lost => 7 | some .failover => 8 | some .lineReset => 9

/-- R188; 0 means none. -/
def lineCauseCode : Option LineCause → Nat
  | none => 0 | some .modeSet => 1 | some .testStarted => 2 | some .testEnded => 3 | some .lineReset => 4
  | some .stuck => 5 | some .stuckCleared => 6

/-- R188. -/
def LineMode.code : LineMode → Nat
  | .off => 0 | .active => 1 | .monitor => 2 | .test => 3

/-- R188. -/
def ScanStatus.code : ScanStatus → Nat
  | .complete => 1 | .cancelled => 2 | .modeChange => 3 | .lineFault => 4 | .lineReset => 5

/-- R188. -/
def TestStatus.code : TestStatus → Nat
  | .complete => 1 | .aborted => 2

/-- R188. -/
def SessionState.code : SessionState → Nat
  | .closed => 0 | .opened => 1 | .stalled => 2

/-- R188. -/
def ExchangeKind.code : ExchangeKind → Nat
  | .poll => 1 | .command => 2 | .probe => 3 | .broadcast => 4 | .rollCall => 5

/-- R188; 0 means IDLE. -/
def phaseCode : Option Phase → Nat
  | none => 0 | some .transmit => 1 | some .guard => 2 | some .await => 3 | some .receive => 4 | some .gap => 5

/-- R185: 1 to 8 for the rates in ascending order. -/
def LineRate.code : LineRate → Nat
  | .r1200 => 1 | .r2400 => 2 | .r4800 => 3 | .r9600 => 4 | .r19200 => 5 | .r38400 => 6 | .r57600 => 7
  | .r115200 => 8

/-- R186: the host link's rate code from the straps RATE1 and RATE0 (R162). -/
def hostRateCode (rate1 rate0 : Bool) : Nat := 1 + flagBit rate0 0 + flagBit rate1 1

/-- R188. -/
def HelloCause.code : HelloCause → Nat
  | .powerOn => 1 | .restart => 2

/-! ### Values read from bodies -/

/-- R182: a line field that must name a line. -/
def lineOf : Nat → Option LineId
  | 0 => some .a
  | 1 => some .b
  | _ => none

/-- R12, R182: an alternate-line field: `some none` is none, and the outer none a value out of range. -/
def alternateOf (n : Nat) : Option (Option LineId) :=
  if n = 0xFF then some none else (lineOf n).map some

/-- R126, R184: the modes SET_LINE_MODE accepts. -/
def settableMode : Nat → Option LineMode
  | 0 => some .off
  | 1 => some .active
  | 2 => some .monitor
  | _ => none

/-- R188: the five output functions. -/
def functionOf : Nat → Option OutputFunction
  | 0 => some .latch | 1 => some .stuckA | 2 => some .stuckB | 3 => some .sessionStalled | 4 => some .reportsUnsent
  | _ => none

/-- R185: the eight rate codes. -/
def rateOf : Nat → Option LineRate
  | 1 => some .r1200 | 2 => some .r2400 | 3 => some .r4800 | 4 => some .r9600 | 5 => some .r19200
  | 6 => some .r38400 | 7 => some .r57600 | 8 => some .r115200
  | _ => none

/-- R182: a flag byte in a request: any value but 0 means set. -/
def flagAt (body : List Byte) (offset : Nat) : Bool := decide (u8At body offset ≠ 0)

/-- The tag at offsets 1 and 2 (R184). -/
def tagOf (body : List Byte) : Half := BitVec.ofNat 16 (u16At body 1)

/-- R2: a poll period in range. -/
def pollPeriodInRange (n : Nat) : Bool := n = 0 || (10 ≤ n && n ≤ 60000)

/-- R2: a retry limit in range. -/
def retryLimitInRange (n : Nat) : Bool := n ≤ 7

/-- R2: an offline threshold in range. -/
def thresholdInRange (n : Nat) : Bool := 1 ≤ n && n ≤ 15

/-- R2: a bus address a station may have. -/
def addressInRange (n : Nat) : Bool := 1 ≤ n && n ≤ 250

/-- R185: a field whose reserved value means DEFAULT. -/
def orDefault (reserved deflt n : Nat) : Nat := if n = reserved then deflt else n

/-- The parameters of DEFINE_STATION (R12, R184), DEFAULT already replaced (R185). -/
structure DefineParams where
  station : Nat
  address : Nat
  home : LineId
  alternate : Option LineId
  pollPeriod : Nat
  retryLimit : Nat
  offlineThreshold : Nat
  enable : Bool
deriving DecidableEq, Repr

/-- R12, check 1: the parameters of a DEFINE_STATION body, or none for BAD_PARAMETER. -/
def defineParams (body : List Byte) : Option DefineParams :=
  let period := orDefault 0xFFFF 500 (u16At body 5)
  let retry := orDefault 0xFF 2 (u8At body 7)
  let threshold := orDefault 0xFF 3 (u8At body 8)
  match lineOf (u8At body 3), alternateOf (u8At body 4) with
  | some home, some alternate =>
    if u8At body 1 < Config.stations ∧ addressInRange (u8At body 2) ∧ alternate ≠ some home
        ∧ pollPeriodInRange period ∧ retryLimitInRange retry ∧ thresholdInRange threshold then
      some { station := u8At body 1, address := u8At body 2, home, alternate, pollPeriod := period,
             retryLimit := retry, offlineThreshold := threshold, enable := flagAt body 9 }
    else none
  | _, _ => none

/-- R129, R185: the ten parameters of a CONFIGURE_LINE body, 0 being DEFAULT, or none for BAD_PARAMETER. -/
def configParams (body : List Byte) : Option LineConfig :=
  let d := LineConfig.powerOn
  let stopBits := orDefault 0 d.stopBits (u8At body 3)
  let replyStart := orDefault 0 d.replyStart (u8At body 4)
  let intercharacter := orDefault 0 d.intercharacter (u8At body 5)
  let lineGap := orDefault 0 d.lineGap (u8At body 6)
  let probeInterval := orDefault 0 d.probeInterval (u16At body 7)
  let busyHoldoff := orDefault 0 d.busyHoldoff (u16At body 9)
  let busyLimit := orDefault 0 d.busyLimit (u8At body 11)
  let commandStreak := orDefault 0 d.commandStreak (u8At body 12)
  let scanStreak := orDefault 0 d.scanStreak (u8At body 13)
  match rateOf (orDefault 0 d.rate.code (u8At body 2)) with
  | none => none
  | some rate =>
    if (stopBits = 1 ∨ stopBits = 2) ∧ (2 ≤ replyStart ∧ replyStart ≤ 255)
        ∧ (1 ≤ intercharacter ∧ intercharacter ≤ 15) ∧ (2 ≤ lineGap ∧ lineGap ≤ 63)
        ∧ (100 ≤ probeInterval ∧ probeInterval ≤ 60000) ∧ (5 ≤ busyHoldoff ∧ busyHoldoff ≤ 5000)
        ∧ (1 ≤ busyLimit ∧ busyLimit ≤ 15) ∧ (1 ≤ commandStreak ∧ commandStreak ≤ 8)
        ∧ (1 ≤ scanStreak ∧ scanStreak ≤ 8) then
      some { rate, stopBits, replyStart, intercharacter, lineGap, probeInterval, busyHoldoff, busyLimit,
             commandStreak, scanStreak }
    else none

/-! ### Request codes and lengths (R184) -/

/-- R183, R184: the request code of a body; an empty body has none. -/
def requestCode (body : List Byte) : Option Nat := body.head?.map BitVec.toNat

/-- R184: the body length a known request code calls for; none for an unknown code. For the two submissions it is 5
plus the stated length at offset 4, and a body shorter than 5 bytes fits no length. -/
def requestLength (body : List Byte) : Option Nat :=
  match requestCode body with
  | none => none
  | some 0x01 => some 1
  | some 0x02 => some 5
  | some 0x03 => some 1
  | some 0x04 => some 1
  | some 0x05 => some 2
  | some 0x06 => some 1
  | some 0x10 => some 10
  | some 0x11 => some 6
  | some 0x12 => some 2
  | some 0x13 => some 2
  | some 0x14 => some 2
  | some 0x15 => some 2
  | some 0x16 => some 3
  | some 0x17 => some 2
  | some 0x30 => some (5 + u8At body 4)
  | some 0x31 => some (5 + u8At body 4)
  | some 0x32 => some 3
  | some 0x40 => some 3
  | some 0x41 => some 14
  | some 0x42 => some 2
  | some 0x43 => some 4
  | some 0x44 => some 2
  | some 0x45 => some 3
  | some 0x46 => some 3
  | some 0x47 => some 2
  | some 0x50 => some 2
  | some 0x51 => some 2
  | some 0x52 => some 3
  | some _ => none

/-- R184: the body's length fits its code. -/
def lengthFits (body : List Byte) : Bool := requestLength body == some body.length

/-! ### What a request is answered with (R186) -/

/-- A response's status and the data after it (R186). -/
structure Reply where
  status : Status
  data : List Byte
deriving DecidableEq, Repr

/-- The BODY of a RESPONSE: the status code, then the data (R186). -/
def Reply.body (r : Reply) : List Byte := r.status.code :: r.data

/-- A response that carries its status alone (R186). -/
def Reply.plain (status : Status) : Reply := ⟨status, []⟩

/-- What the owner of a request's matter gives back (R168): the state it leaves and the response, or no response yet
where the rest of the request waits for a driver release (R65, R141). -/
structure Applied where
  state : State
  reply : Option Reply

end Sys2Proof.Machine
end

