-- ==== Sys2Proof/Machine/Frames.lean ====
section
/-! DEFINITION. Line frames and host frames: how each is built, and how a received line frame is read and judged. -/

namespace Sys2Proof.Machine

/-! ### Line frames sent (R31, R33, R188) -/

/-- R188: the code of a frame the part sends. -/
def sentKindCode : ExchangeKind → Nat
  | .poll => 0x1 | .command => 0x2 | .probe => 0x3 | .broadcast => 0x4 | .rollCall => 0x5

/-- R188: kind in bits 3 to 0, toggle in bit 4, resync mark in bit 5, bits 7 and 6 as 0. -/
def controlByte (kind : Nat) (toggle resync : Bool) : Byte := b8 (kind + flagBit toggle 4 + flagBit resync 5)

/-- R31, R32: the data bytes of a line frame in order, its CRC appended high byte first. The address mark is 1 in the
first character and 0 in every other (R22). -/
def lineFrame (address : Nat) (control : Byte) (payload : List Byte) : List Byte :=
  let covered := b8 address :: control :: b8 payload.length :: payload
  covered ++ [highByte (crc16 covered), lowByte (crc16 covered)]

/-- R33: the frame of an exchange. -/
def exchangeFrame (kind : ExchangeKind) (target : Nat) (toggle : Bool) (payload : List Byte) : List Byte :=
  lineFrame target (controlByte (sentKindCode kind) toggle (kind == .probe)) payload

/-- R139: the payload of frame n of a line test. -/
def testPayload (n : Nat) : List Byte := (List.range 32).map fun p => b8 (7 * n + p)

/-- R139: frame n of a line test: address 0, kind BROADCAST, toggle the low bit of n, resync mark 0, LENGTH 32. -/
def testFrame (n : Nat) : List Byte := lineFrame 0 (controlByte 0x4 (n % 2 == 1) false) (testPayload n)

/-! ### Line frames received (R34 to R38) -/

/-- R34, R38: why a partial frame was abandoned. -/
inductive AbandonCause where
  | newAddress | length | intercharacter | stuck
deriving DecidableEq, Repr

/-- What the frame assembler hands up (R36, R38): the characters of a complete frame, or of an abandoned one with its
cause, and the framing flag. -/
structure HandedUp where
  chars : List Byte
  framing : Bool
  abandoned : Option AbandonCause
deriving DecidableEq, Repr

/-- The address character's data byte. -/
def HandedUp.address (h : HandedUp) : Byte := h.chars.getD 0 0

/-- R188: the kind code in CONTROL. -/
def HandedUp.kindCode (h : HandedUp) : Nat := u8At h.chars 1 % 16

/-- R188: the toggle in CONTROL. -/
def HandedUp.toggle (h : HandedUp) : Bool := (h.chars.getD 1 0).getLsbD 4

/-- R188: the resync mark in CONTROL. -/
def HandedUp.resync (h : HandedUp) : Bool := (h.chars.getD 1 0).getLsbD 5

/-- The LENGTH value. -/
def HandedUp.length (h : HandedUp) : Nat := u8At h.chars 2

/-- The payload characters received; a frame abandoned for its LENGTH has none (R132). -/
def HandedUp.payload (h : HandedUp) : List Byte :=
  if h.length ≤ Config.maxPayload then (h.chars.drop 3).take h.length else []

/-- R32, R36: of a complete frame, whether the received CRC, its last two bytes, is the one computed. -/
def HandedUp.crcMatches (h : HandedUp) : Bool :=
  let covered := h.chars.take (3 + h.length)
  h.chars.drop (3 + h.length) == [highByte (crc16 covered), lowByte (crc16 covered)]

/-- R33: the kind of a reply by its kind code and LENGTH; none marks the frame as of unknown kind. -/
def replyKind (code length : Nat) : Option ReplyKind :=
  match code with
  | 0x8 => if 1 ≤ length ∧ length ≤ 32 then some .data else none
  | 0x9 => if length = 0 then some .empty else none
  | 0xA => if length ≤ 32 then some .done else none
  | 0xB => if length ≤ 32 then some .reject else none
  | 0xC => if length = 0 then some .busy else none
  | 0xD => if length = 0 then some .checkFail else none
  | 0xE => if length = 0 then some .present else none
  | _ => none

/-- R50: the reply kinds an exchange allows. CHECK_FAIL is allowed, and is then a failed attempt of kind NAK. -/
def replyAllowed (exchange : ExchangeKind) (reply : ReplyKind) : Bool :=
  match exchange, reply with
  | .poll, .data | .poll, .empty | .poll, .busy | .poll, .checkFail => true
  | .probe, .data | .probe, .empty | .probe, .busy | .probe, .checkFail => true
  | .command, .done | .command, .reject | .command, .busy | .command, .checkFail => true
  | .rollCall, .present => true
  | _, _ => false

/-- What the checks of R49 find: the first check that fails, or the reply's kind. -/
inductive Judgement where
  | fails (kind : FailureKind)
  | passes (kind : ReplyKind)
deriving DecidableEq, Repr

/-- R49, R50: the six checks in their order. The toggle check is not applied to CHECK_FAIL nor in a ROLL_CALL. -/
def judge (exchange : ExchangeKind) (target : Nat) (toggleSent : Bool) (h : HandedUp) : Judgement :=
  if h.framing then .fails .framing
  else if h.abandoned.isSome then .fails .truncated
  else if !h.crcMatches then .fails .check
  else if h.address.toNat ≠ target then .fails .wrongResponder
  else
    match replyKind h.kindCode h.length with
    | none => .fails .badKind
    | some k =>
      if !replyAllowed exchange k then .fails .badKind
      else if h.toggle ≠ toggleSent ∧ k ≠ .checkFail ∧ exchange ≠ .rollCall then .fails .toggle
      else .passes k

/-- R140: what was handed up matches frame n of a line test. -/
def matchesTestFrame (n : Nat) (h : HandedUp) : Bool :=
  !h.framing && h.abandoned.isNone && h.crcMatches && h.address == 0 && h.kindCode == 0x4
    && h.toggle == (n % 2 == 1) && !h.resync && h.length == 32 && h.payload == testPayload n

/-- R132: the CAPTURE report of what was handed up on a line in MONITOR. A field never received is absent. -/
def captureReport (l : LineId) (h : HandedUp) : Report :=
  .capture l h.address (if 1 < h.chars.length then some h.kindCode else none)
    (if 1 < h.chars.length then some h.toggle else none) (if 2 < h.chars.length then some h.length else none)
    h.payload h.framing (h.abandoned.isNone && !h.crcMatches) h.abandoned.isSome

/-! ### Host frames sent (R163, R183, R187) -/

/-- R163, R183: a host frame: SYNC, LENGTH, KIND, NUMBER, BODY and the CRC, low byte first. -/
def hostFrame (kind : Byte) (number : Byte) (body : List Byte) : List Byte :=
  let covered := b8 (body.length + 2) :: kind :: number :: body
  0xA5#8 :: covered ++ [lowByte (crc16 covered), highByte (crc16 covered)]

/-- R187: the kind code of a report and its contents from offset 3. -/
def Report.bytes : Report → List Byte
  | .stationData n data => [b8 1, b8 n, b8 data.length] ++ data
  | .commandDone tag station outcome transmitted attempts failure reply =>
    [b8 2] ++ le16 tag.toNat ++ [b8 (orNone station), b8 outcome.code, b8 (flagBit transmitted 0), b8 attempts,
      b8 (failureCode failure), b8 reply.length] ++ reply
  | .stationState n state current changes cause =>
    [b8 3, b8 n, b8 state.code, b8 (lineCode current), b8 changes, b8 (stationCauseCode cause)]
  | .lineState l mode stuck cause =>
    [b8 4, b8 (lineCode l), b8 mode.code, b8 (flagBit stuck 0), b8 (lineCauseCode cause)]
  | .scanDone l status responders =>
    [b8 5, b8 (lineCode l), b8 status.code, b8 responders.length] ++ responders.map b8
  | .testDone l status sent matched mismatch =>
    [b8 6, b8 (lineCode l), b8 status.code, b8 sent, b8 matched, b8 (orNone mismatch)]
  | .capture l address kind toggle length payload framing check abandoned =>
    [b8 7, b8 (lineCode l), address,
      b8 (flagBit framing 0 + flagBit check 1 + flagBit abandoned 2 + flagBit kind.isSome 3 + flagBit toggle.isSome 4
        + flagBit length.isSome 5),
      b8 (kind.getD 0), b8 (flagBit (toggle.getD false) 0), b8 (length.getD 0), b8 payload.length] ++ payload

/-- R187: the REPORT frame of an entry; its NUMBER is 0. -/
def reportFrame (e : Entry) : List Byte := hostFrame 0x82#8 0 (le16 e.seq.toNat ++ e.report.bytes)

/-- R183: the RESPONSE frame of a queued response. -/
def responseFrame (r : Response) : List Byte := hostFrame 0x81#8 r.number r.body

/-- R186: the HELLO frame: the cause and the revision. -/
def helloFrame (cause : HelloCause) : List Byte := hostFrame 0x83#8 0 [b8 cause.code, b8 Config.revision]

end Sys2Proof.Machine
end

