-- ==== Sys2Proof/Machine/Flags.lean ====
section
/-! DEFINITION. The conditions the blocks read: what is computed from the state rather than held in it, the pins among
them, and how a received character is classified. -/

namespace Sys2Proof.Machine

/-! ### The report queue -/

/-- R146: entries plus outstanding reservations. -/
def ReportQueue.load (q : ReportQueue) : Nat := q.entries.length + q.reservations

/-- R146, R151, R154: a free unreserved slot exists. -/
def ReportQueue.hasSpace (q : ReportQueue) : Bool := q.load < Config.reportSlots

/-- R149: the entries sent and unacknowledged. -/
def ReportQueue.sentCount (q : ReportQueue) : Nat := (q.entries.filter (·.sent)).length

/-- R149: the entries not yet sent in the present session. -/
def ReportQueue.unsentCount (q : ReportQueue) : Nat := (q.entries.filter (!·.sent)).length

/-- R148: the head's number, or the counter's value when the queue holds no entries. -/
def ReportQueue.oldestSeq (q : ReportQueue) : Half :=
  match q.entries with
  | [] => q.seqCounter
  | e :: _ => e.seq

/-! ### The command pool -/

/-- R90: the station's live records, oldest first. -/
def Pool.recordsOf (p : Pool) (n : Nat) : List CommandRecord := p.records.filter (·.station == some n)

/-- R90: the tag of a station's oldest live record. -/
def Pool.oldestOf (p : Pool) (n : Nat) : Option Half := (p.recordsOf n).head?.map (·.tag)

/-- R93: the live record with a tag. -/
def Pool.find (p : Pool) (tag : Half) : Option CommandRecord := p.records.find? (·.tag == tag)

/-- R91: the order list of a line, head first. -/
def Pool.orderList (p : Pool) (l : LineId) : List CommandRecord :=
  p.records.filter fun r => r.state == .queued && r.line == l

/-! ### Stations -/

/-- R43: the kind of the exchange in flight with a station. A station's exchange is on its current line, and each
line has one exchange record, so the mark is read from the two records. -/
def State.inFlightKind (s : State) (n : Nat) : Option ExchangeKind :=
  let on (l : LineId) : Option ExchangeKind :=
    (s.line l).exchange.bind fun x => if x.station = some n then some x.kind else none
  (on .a).or (on .b)

/-- R5: the station is in the poll ring of a line. -/
def Station.inRing (e : Station) (l : LineId) : Bool :=
  (e.state == .online || e.state == .suspect) && e.current == l

/-- R4: the station claims its address on a line. -/
def Station.claims (e : Station) (l : LineId) : Bool := e.home == l || e.alternate == some l

/-- R4: a defined station claims an address on a line. -/
def State.addressClaimed (s : State) (l : LineId) (address : Nat) : Bool :=
  (List.range Config.stations).any fun n =>
    match s.station n with
    | none => false
    | some e => e.address == address && e.claims l

/-! ### The line column -/

/-- R22, R31: character k of a frame: its address mark is 1 in the first character and 0 in every other. -/
def frameCharacter (frame : List Byte) (k : Nat) : LineCharacter := ⟨frame.getD k 0, k == 0⟩

/-- R44: the character of the line's exchange in the shift path. -/
def Line.exchangeCharacter (ln : Line) : Option LineCharacter :=
  ln.exchange.bind fun x => if x.phase = .transmit then some (frameCharacter x.frame x.charsSent) else none

/-- R140: the character of the line's test in the shift path. -/
def Line.testCharacter (ln : Line) : Option LineCharacter :=
  if ln.exchange.isSome then none
  else ln.test.bind fun t =>
    if t.phase = .sending then some (frameCharacter (testFrame t.index) t.charsSent) else none

/-- R23, R69: the character in the shift path is the one that RESTART left to complete; with it, whether it goes to the
internal loop. -/
def Line.afterRestart (ln : Line) : Option (LineCharacter × Bool) :=
  match ln.ending with
  | some (.restart c looped) => some (c, looped)
  | _ => none

/-- R23: the character in the shift path that goes out at the transmit pin: an exchange's, or the one of an exchange
that completes after RESTART. -/
def Line.pinCharacter (ln : Line) : Option LineCharacter :=
  match ln.afterRestart with
  | none => ln.exchangeCharacter
  | some (c, looped) => if looped then none else some c

/-- R23, R139, R140: the character in the shift path that goes only to the internal loop: a line test's, or the one of a
test that completes after RESTART. While a character completes after RESTART the shift path is that one's
(assumption 9). -/
def Line.loopCharacter (ln : Line) : Option LineCharacter :=
  match ln.afterRestart with
  | none => ln.testCharacter
  | some (c, looped) => if looped then some c else none

/-- R25, R65, R141: a character of the line's exchange or line test is in the transmitter's shift path. -/
def Line.transmitting (ln : Line) : Bool :=
  ln.afterRestart.isNone && (ln.pinCharacter.isSome || ln.loopCharacter.isSome)

/-- R26: the receiver is enabled. -/
def Line.receiverEnabled (ln : Line) : Bool :=
  match ln.mode with
  | .off => false
  | .active => !ln.driver
  | .monitor => true
  | .test => true

/-- R26, R27, R28: the receiver, enabled, does not wait for its input to return to mark, so that edges, start bits and
characters reach it. In TEST its input is the internal loop, whose level the receive pin does not show
(assumption 18). -/
def Line.seeksEdge (ln : Line) : Bool := ln.receiverEnabled && (ln.mode == .test || !ln.awaitsMark)

/-- R37: the receive window of ACTIVE is open: the engine is in AWAIT or RECEIVE. -/
def Line.windowOpen (ln : Line) : Bool :=
  match ln.exchange with
  | none => false
  | some x => x.phase == .await || x.phase == .receive

/-- R29: the STUCK measurement runs. -/
def Line.measuresStuck (ln : Line) : Bool := (ln.mode == .active || ln.mode == .monitor) && !ln.driver

/-- R29: a space run is in progress: the measurement runs and the input is at space. -/
def Line.spaceRun (ln : Line) : Bool := ln.measuresStuck && !ln.rxMark

/-- What a received character is (R34 to R37). -/
inductive CharacterClass where
  | stray
  | begins
  | added
  | tooLong
  | completes
deriving DecidableEq, Repr

/-- R34 to R37: what a character received now is, by its data byte and address mark; none when the receiver is
disabled, or waits for its input to return to mark and so has seen no edge (R26, R28). -/
def Line.classify (ln : Line) (byte : Byte) (addressMark : Bool) : Option CharacterClass :=
  if !ln.seeksEdge then none
  else if ln.mode = .active ∧ !ln.windowOpen then some .stray
  else if addressMark then some .begins
  else
    match ln.assembler with
    | none => some .stray
    | some p =>
      if p.chars.length = 2 ∧ Config.maxPayload < byte.toNat then some .tooLong
      else if p.chars.length + 1 = 5 + u8At p.chars 2 then some .completes
      else some .added

/-- R28, R34 to R37: the row by which the receiver of line l takes a character of these samples. -/
def Line.receipt (l : LineId) (ln : Line) (samples : List Bool) : Option Instr :=
  let (⟨byte, addressMark⟩, framingError) := receivedCharacter samples
  match ln.classify byte addressMark with
  | none => none
  | some .stray => some (.strayCharacter l byte addressMark framingError)
  | some .begins => some (.addressCharacterReceived l byte framingError)
  | some .added => some (.frameCharacterReceived l byte framingError)
  | some .tooLong => some (.lengthAbandon l byte framingError)
  | some .completes => some (.frameReceived l byte framingError)

/-- R140: the character that the internal loop has for the receiver: the line test's in the shift path, until the
receiver has taken it. One that RESTART left in the shift path is none of the test's (assumption 9). -/
def Line.loopDelivery (ln : Line) : Option LineCharacter :=
  if ln.mode = .test ∧ ln.afterRestart.isNone ∧ ln.test.any (!·.delivered) then ln.testCharacter else none

/-- R26, R139, R140: the receiver's input can show this character. In TEST the input is the internal loop, which carries
the character of the line test as it is sent, and nothing else. -/
def Line.hears (ln : Line) (c : LineCharacter) (framingError : Bool) : Bool :=
  ln.mode != .test || (ln.loopDelivery == some c && !framingError)

/-- R26, R34 to R37, R140: the receiver takes a character of these samples now, as one of this class. -/
def Line.takes (ln : Line) (k : CharacterClass) (byte : Byte) (addressMark framingError : Bool) : Bool :=
  ln.hears ⟨byte, addressMark⟩ framingError && ln.classify byte addressMark == some k

/-- R27, R140: the receiver's input can show a start bit: in TEST, the one of the character on the internal loop. -/
def Line.startBitComes (ln : Line) : Bool := ln.seeksEdge && (ln.mode != .test || ln.loopDelivery.isSome)

/-- R27, R139: the receiver's input can show an edge that is no start bit: not in TEST, where it is the internal loop
and the receive pin is ignored. -/
def Line.glitchComes (ln : Line) : Bool := ln.seeksEdge && ln.mode != .test

/-- R71: the line is free. A transmitter that is still completing a character at an ending takes no new frame (R23,
assumption 9). -/
def Line.free (ln : Line) : Bool :=
  ln.mode == .active && !ln.stuck && ln.exchange.isNone && ln.ending.isNone

/-! ### The host link -/

/-- R167: the level of HOLD, true is high. -/
def Link.hold (k : Link) : Bool := k.intake.length == Config.intakeSize

/-- R170: the response queue has a free place; the place of a request whose steps wait for a driver release is kept
for it (assumption 8). -/
def Link.responseRoom (k : Link) : Bool :=
  k.responses.length + (if k.held.isSome then 1 else 0) < Config.responseQueueSize

/-- R168: the link may take the intake's head. -/
def Link.canTake (k : Link) : Bool := k.responseRoom && !k.restartWaiting && k.held.isNone

/-- What a host-link byte is (R164, R165). -/
inductive HostByteClass where
  | discarded
  | added
  | frameDiscarded
  | request
  | ack
deriving DecidableEq, Repr

/-- R164: the bytes after SYNC are a whole frame: LENGTH plus 2 bytes have followed LENGTH. -/
def hostFrameComplete (bytes : List Byte) : Bool := bytes.length == u8At bytes 0 + 3

/-- R163: the CRC of a complete frame, received low byte first, is the one computed over LENGTH through BODY. -/
def hostCrcMatches (bytes : List Byte) : Bool :=
  let covered := bytes.take (u8At bytes 0 + 1)
  bytes.drop (u8At bytes 0 + 1) == [lowByte (crc16 covered), highByte (crc16 covered)]

/-- The CRC as received of a complete frame (R167). -/
def hostCrc (bytes : List Byte) : Half :=
  halfOf (bytes.getD (u8At bytes 0 + 2) 0) (bytes.getD (u8At bytes 0 + 1) 0)

/-- The BODY of a complete frame (R163). -/
def hostBody (bytes : List Byte) : List Byte := (bytes.take (u8At bytes 0 + 1)).drop 3

/-- R164, R165: what a byte received now is. -/
def Link.classify (k : Link) (byte : Byte) (framingError : Bool) : HostByteClass :=
  match k.assembler with
  | none => if byte = 0xA5#8 ∧ !framingError then .added else .discarded
  | some p =>
    let bytes := p.bytes ++ [byte]
    if framingError then .frameDiscarded
    else if p.bytes = [] ∧ (byte.toNat < 2 ∨ 66 < byte.toNat) then .frameDiscarded
    else if !hostFrameComplete bytes then .added
    else if !hostCrcMatches bytes then .frameDiscarded
    else if bytes.getD 1 0 = 0x01#8 then .request
    else if bytes.getD 1 0 = 0x02#8 ∧ (hostBody bytes).length = 2 then .ack
    else .frameDiscarded

/-- R40, R162: the receiver seeks a falling edge on HRXD: no power-on reset is in force, and no framing error has it wait
for mark. -/
def State.hostSeeksEdge (s : State) : Bool := !s.inReset && !s.link.awaitsMark

/-- R162, R164, R165: the row by which the host link takes a character of these samples. -/
def State.hostReceipt (s : State) (samples : List Bool) : Option Instr :=
  let (byte, framingError) := receivedHostCharacter samples
  if !s.hostSeeksEdge then none
  else
    match s.link.classify byte framingError with
    | .discarded => some (.byteDiscarded byte framingError)
    | .added => some (.hostByteReceived byte)
    | .frameDiscarded => some (.hostFrameDiscarded byte framingError)
    | .request => some (.requestArrival byte)
    | .ack => some (.ack byte)

/-! ### Pins -/

/-- R143: the value of a discrete output's pin, true is high. -/
def State.pin (s : State) (o : Output) : Bool :=
  match o.function with
  | .latch => o.latch
  | .stuckA => s.lineA.stuck
  | .stuckB => s.lineB.stuck
  | .sessionStalled => s.link.session.state == .stalled
  | .reportsUnsent => 0 < s.queue.unsentCount

/-- R40: the level of the HOLD pin, true is high. -/
def State.holdPin (s : State) : Bool := s.link.hold

/-- R23, R40: the level of a line's transmit pin, ATXD or BTXD, in a bit time of the character being sent; at mark while
no character is sent, and in TEST, whose characters go only to the loop. -/
def Line.txPin (ln : Line) (bitTime : Nat) : Bool :=
  match ln.pinCharacter with
  | none => true
  | some c => (c.levels ln.config.stopBits).getD bitTime true

/-- R23, R140: the level of a line's internal loop, the receiver's input in TEST, in a bit time of the character being
sent. -/
def Line.loopLevel (ln : Line) (bitTime : Nat) : Bool :=
  match ln.loopCharacter with
  | none => true
  | some c => (c.levels ln.config.stopBits).getD bitTime true

/-- R40, R162: the level of HTXD in a bit time of the frame being sent; at mark between frames. -/
def Link.txPin (k : Link) (bitTime : Nat) : Bool :=
  match k.sending with
  | none => true
  | some f => f.levels.getD bitTime true

end Sys2Proof.Machine
end

