-- ==== Sys2Proof/Machine/Ops.lean ====
section
/-! DEFINITION. The named operations over the shared stores: the report queue, the command pool and the station table,
with the loss and recovery of stations. A block has no exception entry: raising a notice is the operation the part has
in its place. -/

namespace Sys2Proof.Machine

/-! ### The report queue (Chapter 8) -/

/-- R148: a report enters at the tail with the counter's value, its sent mark clear, and the counter rises by one,
wrapping. -/
def enqueue (r : Report) (s : State) : State :=
  s.onQueue fun q =>
    { q with entries := q.entries ++ [⟨q.seqCounter, r, false⟩], seqCounter := q.seqCounter + 1 }

/-- R151: a reservation is granted. The asker has found space. -/
def grant (s : State) : State := s.onQueue fun q => { q with reservations := q.reservations + 1 }

/-- R153: a reservation is released unused. -/
def release (s : State) : State := s.onQueue fun q => { q with reservations := q.reservations - 1 }

/-- R152: a reservation is converted into its report. -/
def convert (r : Report) (s : State) : State := enqueue r (release s)

/-! ### Station entries (Chapter 1) -/

/-- R10: the notice flag is set with a cause, and the change count rises. -/
def Station.raiseNotice (e : Station) (cause : StationCause) : Station :=
  { e with notice := true, changeCount := bump255 e.changeCount, lastCause := some cause }

/-- R78: the poll timer is started with the poll period; a period of 0 leaves it stopped. -/
def Station.startPollTimer (e : Station) : Station :=
  { e with pollTimer := if e.pollPeriod = 0 then none else some e.pollPeriod }

/-- R6: the entry's part of entering PROBING. -/
def Station.toProbing (e : Station) : Station :=
  { e with state := .probing, probeTimer := some 0, failures := 0, busyStreak := 0, pollDue := false, pollTimer := none,
           holdoffTimer := none }

/-- R7: the entry's part of entering DISABLED. -/
def Station.toDisabled (e : Station) : Station :=
  { e with state := .disabled, pollTimer := none, holdoffTimer := none, probeTimer := none, pollDue := false,
           pendingDisable := false, failures := 0, busyStreak := 0 }

/-- R53: a failed attempt is recorded in the entry (R8, R9). -/
def Station.recordFailure (e : Station) (k : FailureKind) : Station :=
  { e with sticky := addSticky e.sticky k, lastFailure := some k,
           counters := { e.counters with attemptsFailed := bump e.counters.attemptsFailed } }

/-- R9: an exchange with the station ended on an accepted reply. -/
def Station.countCompleted (e : Station) : Station :=
  { e with counters := { e.counters with completed := bump e.counters.completed } }

/-- R9: a STATION_DATA report was enqueued for the station. -/
def Station.countData (e : Station) : Station :=
  { e with counters := { e.counters with dataReports := bump e.counters.dataReports } }

/-- R63: an accepted BUSY reply: the counter rises and the holdoff timer is started with the line's busy holdoff. -/
def Station.holdOff (e : Station) (busyHoldoff : Nat) : Station :=
  { e with counters := { e.counters with busyReplies := bump e.counters.busyReplies }, holdoffTimer := some busyHoldoff }

/-- R52: the toggle flips. -/
def Station.flip (e : Station) : Station := { e with toggle := !e.toggle }

/-! ### Probe lists (R81) -/

/-- The station leaves the probe list that holds it. -/
def leaveProbeLists (n : Nat) (s : State) : State :=
  { s with lineA := { s.lineA with probeList := s.lineA.probeList.filter (· != n) }
           lineB := { s.lineB with probeList := s.lineB.probeList.filter (· != n) } }

/-- The station joins the tail of a line's probe list. -/
def joinProbeList (l : LineId) (n : Nat) (s : State) : State :=
  s.onLine l fun ln => { ln with probeList := ln.probeList ++ [n] }

/-- R6: the station enters PROBING on its current line. -/
def enterProbing (n : Nat) (s : State) : State :=
  match s.station n with
  | none => s
  | some e => joinProbeList e.current n (leaveProbeLists n (s.setStation n (some e.toProbing)))

/-- R7: the station enters DISABLED; its records are completed by whoever asks for it. -/
def enterDisabled (n : Nat) (s : State) : State := leaveProbeLists n (s.onStation n Station.toDisabled)

/-! ### Command records (Chapter 5) -/

/-- Change the live record with a tag. -/
def onRecord (tag : Half) (f : CommandRecord → CommandRecord) (s : State) : State :=
  s.onPool fun p => { p with records := p.records.map fun r => if r.tag = tag then f r else r }

/-- R101: the COMMAND_DONE report of a record. -/
def commandDone (r : CommandRecord) (outcome : CommandOutcome) (reply : List Byte) : Report :=
  .commandDone r.tag r.station outcome r.transmitted r.attempts r.lastFailure reply

/-- R99, step 4: when the record completed was its station's oldest, the busy streak becomes 0. -/
def resetBusyStreak (r : CommandRecord) (wasOldest : Bool) (s : State) : State :=
  match r.station with
  | none => s
  | some n => if wasOldest then s.onStation n fun e => { e with busyStreak := 0 } else s

/-- R99: the record is its station's oldest live record. -/
def Pool.isOldest (p : Pool) (r : CommandRecord) : Bool :=
  match r.station with
  | none => false
  | some n => p.oldestOf n == some r.tag

/-- R99: a live record completes. It leaves its list and the pool, its tag becomes free, its reservation becomes its
COMMAND_DONE report, and the station's next record becomes its oldest. -/
def completeRecord (r : CommandRecord) (outcome : CommandOutcome) (reply : List Byte) (s : State) : State :=
  resetBusyStreak r (s.pool.isOldest r)
    (convert (commandDone r outcome reply)
      (s.onPool fun p => { p with records := p.records.eraseP (·.tag == r.tag) }))

/-- R102: several records complete together, oldest first, without reply data. -/
def completeRecords (rs : List CommandRecord) (outcome : CommandOutcome) (s : State) : State :=
  rs.foldl (fun s r => completeRecord r outcome [] s) s

/-- R102: every live record of a station completes. -/
def completeAllOf (n : Nat) (outcome : CommandOutcome) (s : State) : State :=
  completeRecords (s.pool.recordsOf n) outcome s

/-- R115: the resync release: the station's records with the transmitted flag set complete RESYNC. -/
def resyncRelease (n : Nat) (s : State) : State :=
  completeRecords ((s.pool.recordsOf n).filter (·.transmitted)) .resync s

/-- R89, R95, R96: a record is created under a granted reservation, QUEUED, with the next acceptance number. -/
def acceptRecord (tag : Half) (station : Option Nat) (l : LineId) (payload : List Byte) (s : State) : State :=
  (grant s).onPool fun p =>
    { records := p.records ++
        [{ tag, station, line := l, acceptance := p.acceptCount, payload, state := .queued, attempts := 0,
           lastFailure := none, transmitted := false, cancelPending := false }]
      acceptCount := p.acceptCount + 1 }

/-! ### Disabling (R16, R17) -/

/-- R16: a disable takes effect: DISABLED, the live records complete, the notice is set. -/
def disableTakesEffect (n : Nat) (s : State) : State :=
  (completeAllOf n .disabled (enterDisabled n s)).onStation n (·.raiseNotice .disable)

/-- R17: at the end of an exchange a pending disable takes effect. -/
def resolveDisable (n : Nat) (s : State) : State :=
  match s.station n with
  | none => s
  | some e => if e.pendingDisable then disableTakesEffect n s else s

/-! ### Loss and recovery (Chapter 6) -/

/-- R119: the station is reached and enters ONLINE on its current line. -/
def stationReached (n : Nat) (s : State) : State :=
  (leaveProbeLists n s).onStation n fun e =>
    ({ e with state := .online, failures := 0, probeTimer := none }.startPollTimer).raiseNotice .reached

/-- R110: an exchange with the station is handed over as answered. -/
def stationAnswered (n : Nat) (s : State) : State :=
  match s.station n with
  | none => s
  | some e =>
    match e.state with
    | .disabled => s
    | .online => s
    | .suspect => s.setStation n (some (({ e with state := .online, failures := 0 } : Station).raiseNotice .recovered))
    | .probing => stationReached n s
    | .offline => stationReached n s

/-- R113, step 1: the station becomes OFFLINE on its current line. From SUSPECT it leaves the poll ring and joins the
tail of the probe list; from PROBING it keeps its place and its probe timer. -/
def enterOffline (n : Nat) (s : State) : State :=
  match s.station n with
  | none => s
  | some e =>
    if e.state = .probing then s.setStation n (some { e with state := .offline })
    else
      joinProbeList e.current n
        (leaveProbeLists n
          (s.setStation n
            (some { e with state := .offline, pollTimer := none, pollDue := false, probeTimer := some 0 })))

/-- R113: the offline threshold is reached without failover. -/
def loseStation (n : Nat) (s : State) : State :=
  (completeAllOf n .stationLost (enterOffline n s)).onStation n (·.raiseNotice .lost)

/-- R114, step 2 and the entry's part of step 1: the current line becomes the other line. -/
def Station.switchLine (e : Station) : Station :=
  { e with pollTimer := none, pollDue := false, current := e.current.other,
           counters := { e.counters with lineSwitches := bump e.counters.lineSwitches } }

/-- R114, step 3: the station's remaining records take a line, each keeping its place by acceptance order. -/
def moveRecords (n : Nat) (l : LineId) (s : State) : State :=
  s.onPool fun p =>
    { p with records := p.records.map fun r => if r.station = some n then { r with line := l } else r }

/-- R114: the offline threshold is reached with failover possible. -/
def failOver (n : Nat) (s : State) : State :=
  match s.station n with
  | none => s
  | some e =>
    let s := (leaveProbeLists n s).onStation n Station.switchLine
    let s := moveRecords n e.current.other (resyncRelease n s)
    (enterProbing n s).onStation n (·.raiseNotice .failover)

/-- R112: failover is possible: an alternate line is defined and the line other than the current one is ACTIVE. DESIGN
CHOICE (assumption 7): a SET_LINE_MODE or RESET_LINE of that other line which waits for the character in its shift path
has not changed its mode yet, so a threshold reached meanwhile still fails over. -/
def failoverPossible (e : Station) (s : State) : Bool :=
  e.alternate.isSome && (s.line e.current.other).mode == .active

/-- R109: after consecutive failures has risen, it is compared with the threshold as it stands. -/
def compareThreshold (n : Nat) (s : State) : State :=
  match s.station n with
  | none => s
  | some e =>
    if e.offlineThreshold ≤ e.failures then
      if failoverPossible e s then failOver n s else loseStation n s
    else s

/-- R111, R120: an exchange with the station is handed over as a failed exchange or a failed probe. -/
def stationFailed (n : Nat) (s : State) : State :=
  match s.station n with
  | none => s
  | some e =>
    let failed := { e with failures := bump15 e.failures }
    match e.state with
    | .disabled => s
    | .online =>
      compareThreshold n (s.setStation n (some (({ failed with state := .suspect } : Station).raiseNotice .failing)))
    | .suspect => compareThreshold n (s.setStation n (some failed))
    | .probing => compareThreshold n (s.setStation n (some failed))
    | .offline => s.setStation n (some failed)

end Sys2Proof.Machine
end

