-- ==== Sys2Proof/Machine/Lines.lean ====
section
/-! DEFINITION. The named operations of a line column: counters and notice, the frame assembler, the exchange engine,
capture, scans, line tests, modes and line resets. -/

namespace Sys2Proof.Machine

/-! ### Counters and notice -/

/-- Raise a line counter (R39). -/
def countLine (l : LineId) (f : LineCounters → LineCounters) (s : State) : State :=
  s.onLine l fun ln => { ln with counters := f ln.counters }

/-- R39. -/
def LineCounters.countSent (c : LineCounters) : LineCounters := { c with framesSent := bump c.framesSent }
/-- R39. -/
def LineCounters.countFraming (c : LineCounters) : LineCounters := { c with framingErrors := bump c.framingErrors }
/-- R39. -/
def LineCounters.countAbandoned (c : LineCounters) : LineCounters :=
  { c with abandonedFrames := bump c.abandonedFrames }
/-- R39. -/
def LineCounters.countStray (c : LineCounters) : LineCounters := { c with strayCharacters := bump c.strayCharacters }
/-- R39. -/
def LineCounters.countAttempt (c : LineCounters) : LineCounters := { c with attemptsFailed := bump c.attemptsFailed }
/-- R39. -/
def LineCounters.countLost (c : LineCounters) : LineCounters := { c with capturesLost := bump c.capturesLost }

/-- R127: the line's notice flag is set and its cause written. -/
def raiseLineNotice (l : LineId) (cause : LineCause) (s : State) : State :=
  s.onLine l fun ln => { ln with notice := true, noticeCause := some cause }

/-! ### The driver (R24, R25) -/

/-- R24, R25: the driver is released at once, unless a character that RESTART left in the shift path still completes:
DRIVER_RELEASE follows it (assumption 9). -/
def Line.driverOff (ln : Line) : Bool := ln.driver && ln.afterRestart.isSome

/-! ### The frame assembler -/

/-- R34, cause ENDED: a partial frame held is abandoned, raising abandoned frames, and not handed up. -/
def endAssembly (l : LineId) (s : State) : State :=
  s.onLine l fun ln =>
    match ln.assembler with
    | none => ln
    | some _ => { ln with assembler := none, counters := ln.counters.countAbandoned }

/-! ### Scans (section 7.6) -/

/-- R136, R137: a running scan ends: its reservation becomes its SCAN_DONE report and the record is emptied. -/
def endScan (l : LineId) (status : ScanStatus) (s : State) : State :=
  match (s.line l).scan with
  | none => s
  | some sc => (convert (.scanDone l status sc.responders) s).onLine l fun ln => { ln with scan := none }

/-- R136: a roll call's result is handed to the line's scan record. -/
def rollCallResult (l : LineId) (present : Bool) (s : State) : State :=
  match (s.line l).scan with
  | none => s
  | some sc =>
    if !sc.rollCall then s
    else
      let responders :=
        match present, (s.line l).exchange with
        | true, some x => sc.responders ++ [x.target]
        | _, _ => sc.responders
      let s := s.onLine l fun ln => { ln with scan := some { sc with rollCall := false, responders } }
      if sc.last < sc.next then endScan l .complete s else s

/-! ### The exchange engine (Chapter 3) -/

/-- Change the exchange in flight on a line. -/
def onExchange (l : LineId) (f : Exchange → Exchange) (s : State) : State :=
  s.onLine l fun ln => { ln with exchange := ln.exchange.map f }

/-- Change the command record an exchange carries. -/
def onCarried (x : Exchange) (f : CommandRecord → CommandRecord) (s : State) : State :=
  match x.record with
  | none => s
  | some tag => onRecord tag f s

/-- Change the entry of the station an exchange names. -/
def onNamed (x : Exchange) (f : Station → Station) (s : State) : State :=
  match x.station with
  | none => s
  | some n => s.onStation n f

/-- Complete the command record an exchange carries (R99). -/
def completeCarried (x : Exchange) (outcome : CommandOutcome) (reply : List Byte) (s : State) : State :=
  match x.record with
  | none => s
  | some tag =>
    match s.pool.find tag with
    | none => s
    | some r => completeRecord r outcome reply s

/-- The exchange's outcome is decided; from here on it carries no record and holds no reservation. -/
def decideOutcome (l : LineId) (o : ExchangeOutcome) (s : State) : State :=
  onExchange l (fun x => { x with outcome := some o, record := none, holdsReservation := false }) s

/-- R43: each attempt raises the carried record's attempts count; the line port begins sending (R24). -/
def beginAttempt (l : LineId) (x : Exchange) (s : State) : State :=
  (onCarried x (fun r => { r with attempts := bump255 r.attempts }) s).onLine l fun ln =>
    { ln with exchange := some { x with phase := .transmit, charsSent := 0, timer := none }, driver := true }

/-- R42, R43: an exchange starts: a carried record becomes IN_FLIGHT with last failure none (R97). -/
def startExchange (l : LineId) (kind : ExchangeKind) (station : Option Nat) (target : Nat) (record : Option Half)
    (holdsReservation toggle : Bool) (payload : List Byte) (s : State) : State :=
  let x : Exchange :=
    { kind, station, target, record, holdsReservation, attempt := 1, toggleSent := toggle, phase := .transmit,
      charsSent := 0, lastFailure := none, outcome := none, frame := exchangeFrame kind target toggle payload,
      timer := none }
  beginAttempt l x (onCarried x (fun r => { r with state := .inFlight, lastFailure := none }) s)

/-- R48: the engine enters GAP with the gap timer started. A frame begun by the address character that ended the
attempt belongs to no attempt: the assembler discards it, and it counts as stray (R37, R47). -/
def enterGap (l : LineId) (s : State) : State :=
  s.onLine l fun ln =>
    { ln with
      exchange := ln.exchange.map fun x => { x with phase := .gap, timer := some ln.config.lineGap }
      counters := if ln.assembler.isSome then ln.counters.countStray else ln.counters
      assembler := none }

/-- R153: a POLL or PROBE releases its reservation unused. -/
def releaseHeld (x : Exchange) (s : State) : State := if x.holdsReservation then release s else s

/-- R61: every attempt allowed has failed. -/
def exchangeFailed (l : LineId) (x : Exchange) (s : State) : State :=
  decideOutcome l .failed <|
    match x.kind with
    | .poll => onNamed x Station.startPollTimer (releaseHeld x s)
    | .probe => releaseHeld x s
    | .command => completeCarried x .failed [] s
    | .broadcast => s
    | .rollCall => s

/-- R54: the retry limit as it stands. -/
def retryLimitOf (x : Exchange) (s : State) : Nat :=
  match x.station with
  | none => 0
  | some n => match s.station n with
    | none => 0
    | some e => e.retryLimit

/-- R53: a failed attempt is recorded in the exchange, the carried record (R97), the station and the line. -/
def recordFailedAttempt (l : LineId) (x : Exchange) (k : FailureKind) (s : State) : State :=
  countLine l LineCounters.countAttempt
    (onNamed x (·.recordFailure k)
      (onCarried x (fun r => { r with lastFailure := some k })
        (onExchange l (fun x => { x with lastFailure := some k }) s)))

/-- R53, R54: an attempt of the exchange in flight fails; the engine enters GAP, the final one when the attempts made
exceed the retry limit. -/
def failAttempt (l : LineId) (k : FailureKind) (s : State) : State :=
  match (s.line l).exchange with
  | none => s
  | some x =>
    let s := recordFailedAttempt l x k s
    enterGap l (if x.attempt ≤ retryLimitOf x s then s else exchangeFailed l x s)

/-- R60: a ROLL_CALL attempt ends with its result. -/
def endRollCall (l : LineId) (present : Bool) (s : State) : State :=
  enterGap l (decideOutcome l (if present then .present else .absent) (rollCallResult l present s))

/-- R56, R58: a DATA reply to a POLL or PROBE fills the reservation. -/
def acceptData (x : Exchange) (data : List Byte) (s : State) : State :=
  match x.station with
  | none => s
  | some n => (convert (.stationData n data) s).onStation n fun e => e.countCompleted.countData.flip

/-- The busy holdoff of a line (R63, R128). -/
def busyHoldoffOf (l : LineId) (s : State) : Nat := (s.line l).config.busyHoldoff

/-- R56: an accepted reply to a POLL. -/
def acceptPoll (l : LineId) (x : Exchange) (k : ReplyKind) (payload : List Byte) (s : State) : State :=
  onNamed x Station.startPollTimer <|
    match k with
    | .data => acceptData x payload s
    | .busy => onNamed x (fun e => e.countCompleted.holdOff (busyHoldoffOf l s)) (releaseHeld x s)
    | _ => onNamed x (fun e => e.countCompleted.flip) (releaseHeld x s)

/-- R58: an accepted reply to a PROBE. -/
def acceptProbe (l : LineId) (x : Exchange) (k : ReplyKind) (payload : List Byte) (s : State) : State :=
  match k with
  | .data => acceptData x payload s
  | .busy => onNamed x (fun e => e.countCompleted.holdOff (busyHoldoffOf l s)) (releaseHeld x s)
  | _ => onNamed x (fun e => e.countCompleted.flip) (releaseHeld x s)

/-- R57: a COMMAND answered DONE or REJECT. -/
def acceptCommand (x : Exchange) (outcome : CommandOutcome) (payload : List Byte) (s : State) : State :=
  onNamed x (fun e => ({ e.countCompleted.flip with busyStreak := 0 } : Station).startPollTimer)
    (completeCarried x outcome payload s)

/-- R62: what becomes of the record after a BUSY reply, by the streak after rising. -/
def busyDisposition (l : LineId) (x : Exchange) (streak : Nat) (s : State) : State :=
  if (s.line l).config.busyLimit ≤ streak then
    onNamed x (fun e => { e with sticky := addSticky e.sticky .busyLimit, busyStreak := 0 })
      (completeCarried x .stationBusy [] s)
  else
    match x.record with
    | none => s
    | some tag =>
      match s.pool.find tag with
      | none => s
      | some r =>
        if r.cancelPending then completeRecord r .cancelled [] s
        else onRecord tag (fun r => { r with state := .queued }) s

/-- R62: a COMMAND answered BUSY. -/
def acceptCommandBusy (l : LineId) (x : Exchange) (s : State) : State :=
  match x.station with
  | none => s
  | some n =>
    match s.station n with
    | none => s
    | some e =>
      let streak := bump15 e.busyStreak
      busyDisposition l x streak
        (s.setStation n (some { e.countCompleted.holdOff (busyHoldoffOf l s) with busyStreak := streak }))

/-- R56, R57, R58, R62: an accepted reply decides the exchange's outcome. -/
def acceptReply (l : LineId) (x : Exchange) (k : ReplyKind) (payload : List Byte) (s : State) : State :=
  decideOutcome l (.accepted k) <|
    match x.kind, k with
    | .poll, k => acceptPoll l x k payload s
    | .probe, k => acceptProbe l x k payload s
    | .command, .busy => acceptCommandBusy l x s
    | .command, .done => acceptCommand x .done payload s
    | .command, _ => acceptCommand x .rejected payload s
    | .broadcast, _ => s
    | .rollCall, _ => s

/-- R47, R49, R50, R60: the frame or abandonment that ends RECEIVE is judged, and the attempt ends. -/
def judgeReply (l : LineId) (h : HandedUp) (s : State) : State :=
  match (s.line l).exchange with
  | none => s
  | some x =>
    if x.phase ≠ .receive then s
    else
      match x.kind, judge x.kind x.target x.toggleSent h with
      | .rollCall, j => endRollCall l (j = .passes .present) s
      | _, .fails k => failAttempt l k s
      | _, .passes .checkFail => failAttempt l .nak s
      | _, .passes k => enterGap l (acceptReply l x k h.payload s)

/-- R108: the result of an exchange as a whole. -/
inductive ExchangeResult where
  | answered
  | failed
  | nothing
deriving DecidableEq, Repr

/-- R108: the result by the decided outcome. -/
def Exchange.result (x : Exchange) : ExchangeResult :=
  match x.outcome with
  | some (.accepted _) => .answered
  | some .failed => .failed
  | _ => .nothing

/-- R64, step 2: the result is applied to the station's loss and recovery state. -/
def applyResult (n : Nat) (r : ExchangeResult) (s : State) : State :=
  match r with
  | .answered => stationAnswered n s
  | .failed => stationFailed n s
  | .nothing => s

/-- R64: the exchange ends: the record is emptied and with it the station's mark, the result is applied, and a pending
disable takes effect. -/
def endExchange (l : LineId) (s : State) : State :=
  match (s.line l).exchange with
  | none => s
  | some x =>
    let s := s.onLine l fun ln => { ln with exchange := none }
    match x.station with
    | none => s
    | some n => resolveDisable n (applyResult n x.result s)

/-- R67: the work of an exchange cut off without a decided outcome. -/
def disposeWork (l : LineId) (x : Exchange) (s : State) : State :=
  match x.kind with
  | .poll => onNamed x (fun e => { e with pollDue := true }) (releaseHeld x s)
  | .probe => onNamed x (fun e => { e with probeTimer := some 0 }) (releaseHeld x s)
  | .rollCall => rollCallResult l false s
  | _ =>
    match x.record with
    | none => s
    | some tag =>
      match s.pool.find tag with
      | none => s
      | some r =>
        if r.cancelPending then completeRecord r .cancelled [] s
        else onRecord tag (fun r => { r with state := .queued }) s

/-- R65, R66: the exchange in flight is ended at once, ABORTED or LINE_FAULT: the driver is released, a partial frame
abandoned, and work without a decided outcome disposed of; then the steps of R64 follow. -/
def cutOff (l : LineId) (s : State) : State :=
  let s := (endAssembly l s).onLine l fun ln => { ln with driver := ln.driverOff }
  match (s.line l).exchange with
  | none => s
  | some x => endExchange l (if x.outcome.isSome then s else disposeWork l x s)

/-- R44, R59: the last character of the exchange's frame has left: frames sent rises, the transmitted flag is set, and
a broadcast is SENT. -/
def exchangeFrameLeft (l : LineId) (x : Exchange) (s : State) : State :=
  let s := onCarried x (fun r => { r with transmitted := true }) (countLine l LineCounters.countSent s)
  let s := onExchange l (fun x => { x with phase := .guard, charsSent := x.frame.length }) s
  if x.kind = .broadcast then decideOutcome l .sent (completeCarried x .sent [] s) else s

/-! ### Capture (section 7.5) -/

/-- R132: capture takes a free unreserved slot, or the frame is dropped and counted. -/
def captureFrame (l : LineId) (h : HandedUp) (s : State) : State :=
  if s.queue.hasSpace then enqueue (captureReport l h) s else countLine l LineCounters.countLost s

/-! ### Line tests (section 7.7) -/

/-- R141: a line test ends: TEST_DONE, mode OFF, the notice. The mode leaves TEST, so a partial frame is abandoned. -/
def endTest (l : LineId) (status : TestStatus) (s : State) : State :=
  match (s.line l).test with
  | none => s
  | some t =>
    raiseLineNotice l .testEnded
      ((convert (.testDone l status t.framesSent t.framesMatched t.firstMismatch) (endAssembly l s)).onLine l fun ln =>
        { ln with test := none, mode := .off, awaitsMark := false })

/-- R140: the frame in progress is judged; the test ends after its last frame and otherwise enters GAP. -/
def judgeTest (l : LineId) (matched : Bool) (s : State) : State :=
  match (s.line l).test with
  | none => s
  | some t =>
    let t :=
      if matched then { t with framesMatched := t.framesMatched + 1 }
      else { t with firstMismatch := t.firstMismatch.or (some t.index) }
    if t.count ≤ t.index + 1 then endTest l .complete (s.onLine l fun ln => { ln with test := some t })
    else
      s.onLine l fun ln =>
        { ln with test := some { t with phase := .gap, handed := none, timer := some ln.config.lineGap } }

/-- R140: the assembler hands up a frame or an abandonment in TEST; the first since frame n began counts. -/
def testHandedUp (l : LineId) (h : HandedUp) (s : State) : State :=
  match (s.line l).test with
  | none => s
  | some t =>
    match t.phase with
    | .sending =>
      s.onLine l fun ln =>
        { ln with test := some { t with handed := t.handed.or (some (matchesTestFrame t.index h)) } }
    | .awaiting => judgeTest l (matchesTestFrame t.index h) s
    | .gap => s

/-- R140: the test enters AWAITING, and judges at once what was handed up during SENDING. -/
def testAwaits (l : LineId) (s : State) : State :=
  let s := s.onLine l fun ln =>
    { ln with test := ln.test.map fun t => { t with phase := .awaiting, timer := some ln.config.replyStart } }
  match (s.line l).test.bind (·.handed) with
  | none => s
  | some matched => judgeTest l matched s

/-! ### Handing up (R38) -/

/-- R38: the assembler hands up to the block its line's mode names. -/
def handUp (l : LineId) (h : HandedUp) (s : State) : State :=
  match (s.line l).mode with
  | .off => s
  | .active => judgeReply l h s
  | .monitor => captureFrame l h s
  | .test => testHandedUp l h s

/-! ### Modes (section 7.1) -/

/-- R126, step 4: the new mode takes effect. The receiver becomes enabled in ACTIVE and MONITOR and seeks an edge once
its input is at mark (R26). -/
def takeMode (l : LineId) (m : LineMode) (s : State) : State :=
  s.onLine l fun ln =>
    match m with
    | .active => { ln with mode := m, awaitsMark := !ln.rxMark }
    | .monitor => { ln with mode := m, driver := ln.driverOff, awaitsMark := !ln.rxMark }
    | _ => { ln with mode := m, driver := ln.driverOff, stuck := false, awaitsMark := false }

/-- R126, steps 1 and 2: the line's work ends: a test is aborted; an exchange is ended ABORTED, a scan ends
MODE_CHANGE, and both of the scheduler's counts become 0. -/
def endLineWork (l : LineId) (s : State) : State :=
  match (s.line l).mode with
  | .test => endTest l .aborted s
  | .active =>
    (endScan l .modeChange (cutOff l s)).onLine l fun ln => { ln with commandCount := 0, scanCount := 0 }
  | _ => s

/-- R126: the steps of a mode change, once no character is in the shift path. A change from TEST to OFF stops after
the test's end. -/
def changeMode (l : LineId) (m : LineMode) (s : State) : State :=
  let s := endLineWork l s
  if (s.line l).mode = m then s
  else raiseLineNotice l .modeSet (takeMode l m (endAssembly l s))

/-! ### Line resets (section 7.4) -/

/-- R21, R123: one station's part of RESET_LINE. -/
def resetStation (l : LineId) (s : State) (n : Nat) : State :=
  match s.station n with
  | none => s
  | some e =>
    if e.current = l ∧ e.state ≠ .disabled then
      (enterProbing n (resyncRelease n s)).onStation n fun e =>
        ({ e with pendingDisable := false } : Station).raiseNotice .lineReset
    else s

/-- R131, steps 1 and 2: the line's work ends. -/
def endWorkForReset (l : LineId) (s : State) : State :=
  match (s.line l).mode with
  | .test => endTest l .aborted s
  | .active => endScan l .lineReset (cutOff l s)
  | _ => s

/-- R131, step 3: the line port and the scheduler are brought to their beginning; configuration and lists are kept. -/
def clearLine (ln : Line) : Line :=
  { ln with assembler := none, stuck := false, awaitsMark := false, counters := .zero, mode := .off,
            driver := ln.driverOff, walk := none, commandCount := 0, scanCount := 0 }

/-- R131: the steps of RESET_LINE, once no character is in the shift path. -/
def resetLineNow (l : LineId) (s : State) : State :=
  let s := (endWorkForReset l s).onLine l clearLine
  raiseLineNotice l .lineReset ((List.range Config.stations).foldl (resetStation l) s)

end Sys2Proof.Machine
end

