-- ==== Sys2Proof/Machine/HostLink.lean ====
section
/-! DEFINITION. The named operations of the host link: counters, the intake, the response cache and queue, the session
and its resend run, the host transmitter, and the restart. -/

namespace Sys2Proof.Machine

/-- Raise a link counter (R166). -/
def countLink (f : LinkCounters → LinkCounters) (s : State) : State :=
  s.onLink fun k => { k with counters := f k.counters }

/-- R166. -/
def LinkCounters.countDiscarded (c : LinkCounters) : LinkCounters := { c with bytesDiscarded := bump c.bytesDiscarded }
/-- R166. -/
def LinkCounters.countBad (c : LinkCounters) : LinkCounters := { c with badFrames := bump c.badFrames }
/-- R166. -/
def LinkCounters.countTimeout (c : LinkCounters) : LinkCounters := { c with frameTimeouts := bump c.frameTimeouts }
/-- R166. -/
def LinkCounters.countDuplicate (c : LinkCounters) : LinkCounters :=
  { c with duplicateRequests := bump c.duplicateRequests }
/-- R166. -/
def LinkCounters.countBackoff (c : LinkCounters) : LinkCounters := { c with backoffs := bump c.backoffs }
/-- R166. -/
def LinkCounters.countDropped (c : LinkCounters) : LinkCounters := { c with responsesDropped := bump c.responsesDropped }
/-- R166. -/
def LinkCounters.countStrayAck (c : LinkCounters) : LinkCounters := { c with strayAcks := bump c.strayAcks }
/-- R166. -/
def LinkCounters.countRun (c : LinkCounters) : LinkCounters := { c with retransmissionRuns := bump c.retransmissionRuns }
/-- R166. -/
def LinkCounters.countStall (c : LinkCounters) : LinkCounters := { c with stalls := bump c.stalls }

/-! ### Responses (R167 to R170) -/

/-- R170: a BACKOFF or a cached response is queued if there is room, and is otherwise dropped and counted. -/
def queueIfRoom (r : Response) (s : State) : State :=
  if s.link.responseRoom then s.onLink fun k => { k with responses := k.responses ++ [r] }
  else countLink LinkCounters.countDropped s

/-- R169: an entry is added to the cache; the one added longest ago makes room. -/
def cacheAdd (cache : List CacheEntry) (e : CacheEntry) : List CacheEntry :=
  if Config.cacheSize ≤ cache.length then cache.drop 1 ++ [e] else cache ++ [e]

/-- R168, R169: the response to a taken request joins the tail of the response queue and the cache. -/
def respond (r : Request) (rep : Reply) (restarts : Bool) (s : State) : State :=
  s.onLink fun k =>
    { k with
      responses := k.responses ++ [⟨r.number, rep.body, restarts⟩]
      cache := cacheAdd k.cache ⟨r.number, r.crc, rep.body⟩ }

/-- The link keeps a request whose steps wait for a driver release (R65, R141). -/
def holdRequest (r : Request) (s : State) : State := s.onLink fun k => { k with held := some r }

/-- R168: the head of the intake is taken, when it is a request of the given code, and judged: BAD_REQUEST for a body
that does not fit, NO_SESSION in CLOSED, and otherwise its owner's answer, queued after everything it causes. -/
def takeRequest (code : Nat) (inClosed : Bool) (apply : List Byte → State → Applied) (s : State) : State :=
  match s.link.intake with
  | [] => s
  | r :: rest =>
    if s.link.canTake ∧ requestCode r.body = some code then
      let s := s.onLink fun k => { k with intake := rest }
      if !lengthFits r.body then respond r (.plain .badRequest) false s
      else if s.link.session.state = .closed ∧ !inClosed then respond r (.plain .noSession) false s
      else
        let a := apply r.body s
        match a.reply with
        | none => holdRequest r a.state
        | some rep => respond r rep (code = 0x04) a.state
    else s

/-- An owner's refusal: the status alone, and nothing changed. -/
def refuse (status : Status) (s : State) : Applied := ⟨s, some (.plain status)⟩

/-- An owner's plain answer. -/
def answer (status : Status) (s : State) : Applied := ⟨s, some (.plain status)⟩

/-! ### Sessions (R171 to R176) -/

/-- R171, R172: every sent mark in the report queue is cleared. -/
def clearSentMarks (s : State) : State :=
  s.onQueue fun q => { q with entries := q.entries.map fun e => { e with sent := false } }

/-- R171, R172: a run ends, the retransmission count becomes 0 and the acknowledgement timer is stopped. -/
def Session.settle (c : Session) : Session := { c with run := none, retransmissions := 0, ackTimer := none }

/-- R173: a resend run begins with its position at the head entry. -/
def beginRun (s : State) : State :=
  countLink LinkCounters.countRun
    (s.onSession fun c => { c with run := s.queue.entries.head?.map (·.seq) })

/-- R176: a valid frame taken in STALLED returns the session to OPEN, with a run at the head. -/
def returnFromStall (s : State) : State :=
  if s.link.session.state = .stalled then
    beginRun (s.onSession fun c => { c with state := .opened, retransmissions := 0 })
  else s

/-- R157: the entries after the one with number n, and whether that is in the list. -/
def dropThrough (n : Half) : List Entry → List Entry
  | [] => []
  | e :: rest => if e.seq = n then rest else dropThrough n rest

/-- R174: n is the number of a sent entry. -/
def sentNumber (q : ReportQueue) (n : Half) : Bool := q.entries.any fun e => e.sent && e.seq == n

/-- R174: a run's position after a removal: kept while its entry stands in the queue, and otherwise the new head. -/
def moveRun (entries : List Entry) (position : Half) : Option Half :=
  if entries.any (·.seq == position) then some position else entries.head?.map (·.seq)

/-- R174: a valid acknowledgement of number n. -/
def acknowledge (n : Half) (s : State) : State :=
  let entries := dropThrough n s.queue.entries
  let s := s.onQueue fun q => { q with entries }
  if 0 < s.queue.sentCount then
    s.onSession fun c =>
      { c with retransmissions := 0, run := c.run.bind (moveRun entries), ackTimer := some c.timeout }
  else s.onSession Session.settle

/-- R174: an acknowledgement is judged by the sent entries as they stand. -/
def takeAck (n : Half) (s : State) : State :=
  if sentNumber s.queue n then acknowledge n s else countLink LinkCounters.countStrayAck s

/-! ### The host transmitter (R173, R177, R178) -/

/-- R173: the next report: the entry at the resend position of a run, or else, below the window, the oldest unsent
entry. -/
def nextReport (s : State) : Option Entry :=
  let c := s.link.session
  if c.state = .opened then
    match c.run with
    | some position => s.queue.entries.find? (·.seq == position)
    | none => if s.queue.sentCount < c.window then s.queue.entries.find? (!·.sent) else none
  else none

/-- R173: the resend position after the entry of number n: the next entry, if it is sent. -/
def positionAfter (n : Half) (entries : List Entry) : Option Half :=
  match dropThrough n entries with
  | [] => none
  | e :: _ => if e.sent then some e.seq else none

/-- R149, R173: a report frame starts: its entry's sent mark is set and a run's position moves on. -/
def startReport (e : Entry) (s : State) : State :=
  let s := s.onSession fun c => { c with run := c.run.bind fun _ => positionAfter e.seq s.queue.entries }
  (s.onQueue fun q =>
      { q with entries := q.entries.map fun x => if x.seq = e.seq then { x with sent := true } else x }).onLink
    fun k => { k with sending := some ⟨.report, reportFrame e⟩ }

/-- R177: the host transmitter, free and permitted by CTS, starts the oldest response, else the next report, else a
waiting HELLO. -/
def startHostFrame (s : State) : State :=
  if s.link.ctsLow ∧ s.link.sending.isNone then
    match s.link.responses with
    | r :: rest =>
      s.onLink fun k =>
        { k with
          responses := rest
          sending := some ⟨if r.restarts then .restartResponse else .response, responseFrame r⟩ }
    | [] =>
      match nextReport s with
      | some e => startReport e s
      | none =>
        if s.link.helloWaiting then
          s.onLink fun k => { k with helloWaiting := false, sending := some ⟨.hello, helloFrame k.helloCause⟩ }
        else s
  else s

/-- The transmitter would start a frame. -/
def hostFrameWaits (s : State) : Bool :=
  s.link.ctsLow && s.link.sending.isNone
    && (!s.link.responses.isEmpty || (nextReport s).isSome || s.link.helloWaiting)

/-! ### Restart (R20, R69, R88, R107, R127, R133, R141, R158, R180) -/

/-- R20: what RESTART leaves of a defined entry. -/
def Station.restarted (e : Station) : Station :=
  let stays := e.state == .disabled || e.pendingDisable
  { e with
    current := e.home
    toggle := false
    failures := 0
    busyStreak := 0
    counters := .zero
    sticky := 0
    lastFailure := none
    notice := false
    changeCount := 0
    lastCause := none
    pollDue := false
    pollTimer := none
    holdoffTimer := none
    pendingDisable := false
    state := if stays then .disabled else .probing
    probeTimer := if stays then none else some 0 }

/-- R20: the stations a restarted table puts into the probe list of a line, in ascending number. -/
def probingOn (stations : Vector (Option Station) 48) (l : LineId) : List Nat :=
  ((List.range Config.stations).zip stations.toList).filterMap fun p =>
    match p.2 with
    | none => none
    | some e => if e.state = .probing ∧ e.current = l then some p.1 else none

/-- R23, R25, R69: what waits, at RESTART, for the character in the shift path. -/
def Line.restartEnding (ln : Line) : Option LineEnding :=
  (ln.pinCharacter.map (.restart · false)).or (ln.loopCharacter.map (.restart · true))

/-- What RESTART leaves of a line column: mode OFF, no exchange, scan or test, counters 0, the scheduler's values and
the notice as after power-on; the configuration is kept. A character in the shift path completes (R23): at the transmit
pin, with the driver released after it (R25, R69), or, of a line test, on the internal loop. -/
def Line.restarted (ln : Line) (probeList : List Nat) : Line :=
  { Line.powerOn with
    config := ln.config
    rxMark := ln.rxMark
    driver := ln.pinCharacter.isSome
    ending := ln.restartEnding
    probeList }

/-- R180: what RESTART leaves of the host link. It names no effect on the receiver, whose wait for mark goes on
(assumption 27). -/
def Link.restarted (k : Link) : Link :=
  { Link.powerOn with
    rate1 := k.rate1
    rate0 := k.rate0
    ctsLow := k.ctsLow
    awaitsMark := k.awaitsMark
    session := { Session.powerOn with window := k.session.window, timeout := k.session.timeout }
    helloCause := .restart }

/-- R180: the restart is taken as a whole; every block applies its part. The outputs are kept (R143). -/
def takeRestart (s : State) : State :=
  let stations := s.stations.map (·.map Station.restarted)
  { s with
    stations
    lineA := s.lineA.restarted (probingOn stations .a)
    lineB := s.lineB.restarted (probingOn stations .b)
    pool := ⟨[], 0⟩
    queue := ⟨[], 0, 0⟩
    link := s.link.restarted }

end Sys2Proof.Machine
end

