-- ==== Sys2Proof/Machine/CommandRequests.lean ====
section
/-! DEFINITION. The requests of the command pool (Chapter 5). -/

namespace Sys2Proof.Machine

/-- R95, R96: a stated payload length in range. -/
def payloadInRange (body : List Byte) : Bool := 1 ≤ u8At body 4 && u8At body 4 ≤ Config.maxPayload

/-- R95, checks 5 to 8, and the acceptance. -/
def submitForStation (n : Nat) (e : Station) (body : List Byte) (s : State) : Applied :=
  if (s.pool.find (tagOf body)).isSome then refuse .tagInUse s
  else if Config.recordsPerStation ≤ (s.pool.recordsOf n).length then refuse .stationQueueFull s
  else if Config.commandRecords ≤ s.pool.records.length then refuse .poolFull s
  else if !s.queue.hasSpace then refuse .noReportSpace s
  else answer .ok (acceptRecord (tagOf body) (some n) e.current (body.drop 5) s)

/-- R95: the checks in order. -/
def applySubmitCommand (body : List Byte) (s : State) : Applied :=
  let n := u8At body 3
  if Config.stations ≤ n ∨ !payloadInRange body then refuse .badParameter s
  else
    match s.station n with
    | none => refuse .noStation s
    | some e =>
      match e.state with
      | .disabled => refuse .stationDisabled s
      | .offline => refuse .stationOffline s
      | .probing => submitForStation n e body s
      | .online => submitForStation n e body s
      | .suspect => submitForStation n e body s

/-- SUBMIT_COMMAND (R95). -/
def execSubmitCommand (s : State) : Host.Outcome State Fault Refusal :=
  .next (takeRequest 0x30 false applySubmitCommand s)

/-- R96: the checks in order, and the acceptance. -/
def applySubmitBroadcast (body : List Byte) (s : State) : Applied :=
  match lineOf (u8At body 3) with
  | none => refuse .badParameter s
  | some l =>
    if !payloadInRange body then refuse .badParameter s
    else if (s.pool.find (tagOf body)).isSome then refuse .tagInUse s
    else if Config.commandRecords ≤ s.pool.records.length then refuse .poolFull s
    else if !s.queue.hasSpace then refuse .noReportSpace s
    else answer .ok (acceptRecord (tagOf body) none l (body.drop 5) s)

/-- SUBMIT_BROADCAST (R96). -/
def execSubmitBroadcast (s : State) : Host.Outcome State Fault Refusal :=
  .next (takeRequest 0x31 false applySubmitBroadcast s)

/-- R103: what CANCEL_COMMAND finds. -/
def applyCancelCommand (body : List Byte) (s : State) : Applied :=
  match s.pool.find (tagOf body) with
  | none => refuse .unknownTag s
  | some r =>
    match r.state with
    | .queued => answer .ok (completeRecord r .cancelled [] s)
    | .inFlight => answer .inFlight (onRecord r.tag (fun r => { r with cancelPending := true }) s)

/-- CANCEL_COMMAND (R103). -/
def execCancelCommand (s : State) : Host.Outcome State Fault Refusal :=
  .next (takeRequest 0x32 false applyCancelCommand s)

end Sys2Proof.Machine
end

