-- ==== Sys2Proof/Machine/HostReceive.lean ====
section
/-! DEFINITION. The host link's receiver: the meanings of the rows on received host-link bytes, of REQUEST_ARRIVAL and
of ACK (R162 to R167, R174). While power-on reset is in force the receiver ignores HRXD (R40). A row on a received byte
is the event of a byte of its class; State.hostReceipt names the row of a byte by its samples (R162). -/

namespace Sys2Proof.Machine

/-- R40, R162, R164, R165: the byte is received and is of the class that the row names. -/
def hostByteIs (c : HostByteClass) (byte : Byte) (framingError : Bool) (s : State) : Bool :=
  s.hostSeeksEdge && s.link.classify byte framingError == c

/-- R162: after a byte with a framing error the receiver waits for HRXD to return to mark; after one without, it seeks
the next edge at once. -/
def receiveHostByte (framingError : Bool) (s : State) : State :=
  s.onLink fun k => { k with awaitsMark := framingError }

/-- The assembler returns to SEEKING (R164). -/
def seekHost (s : State) : State := s.onLink fun k => { k with assembler := none }

/-- BYTE_DISCARDED (R164): counted; the assembler stays in SEEKING. -/
def execByteDiscarded (byte : Byte) (framingError : Bool) (s : State) : Host.Outcome State Fault Refusal :=
  .next
    (if hostByteIs .discarded byte framingError s then
      countLink LinkCounters.countDiscarded (receiveHostByte framingError s)
    else s)

/-- HOST_FRAME_DISCARDED (R164, R165): a bad LENGTH, a framing error, a CRC mismatch, an unusable KIND or a bad ACK
body discards the frame and raises bad frames. -/
def execHostFrameDiscarded (byte : Byte) (framingError : Bool) (s : State) : Host.Outcome State Fault Refusal :=
  .next
    (if hostByteIs .frameDiscarded byte framingError s then
      countLink LinkCounters.countBad (seekHost (receiveHostByte framingError s))
    else s)

/-- R164: the host frame assembler's gap timer runs. -/
def hostGapRuns (s : State) : Bool := (s.link.assembler.bind (·.timer)).isSome

/-- HOST_FRAME_GAP_TIMEOUT (R164). A timer that does not run does not expire. -/
def execHostFrameGapTimeout (s : State) : Host.Outcome State Fault Refusal :=
  .next (if hostGapRuns s then countLink LinkCounters.countTimeout (seekHost s) else s)

/-- R164: the byte starts a frame, or is added to the one in COLLECTING; the gap timer is started. -/
def addHostByte (byte : Byte) (s : State) : State :=
  s.onLink fun k =>
    { k with assembler :=
        match k.assembler with
        | none => some ⟨[], some Config.hostGap⟩
        | some p => some ⟨p.bytes ++ [byte], some Config.hostGap⟩ }

/-- HOST_BYTE_RECEIVED (R164). -/
def execHostByteReceived (byte : Byte) (s : State) : Host.Outcome State Fault Refusal :=
  .next (if hostByteIs .added byte false s then addHostByte byte s else s)

/-- HOST_START_BIT_ACCEPTED (R162, R164): in COLLECTING the gap timer is stopped. Only a receiver that seeks an edge
accepts a start bit, so its input has returned to mark and a wait for mark is over: DESIGN CHOICE (assumption 27), since
no row brings the level of HRXD. -/
def execHostStartBitAccepted (s : State) : Host.Outcome State Fault Refusal :=
  .next
    (if s.inReset then s
    else
      s.onLink fun k =>
        { k with awaitsMark := false, assembler := k.assembler.map fun p => { p with timer := none } })

/-- The bytes after SYNC of the frame that a byte completes. -/
def completedHostFrame (byte : Byte) (s : State) : List Byte :=
  match s.link.assembler with
  | none => []
  | some p => p.bytes ++ [byte]

/-- R167: the REQUEST a completed frame carries. -/
def requestOf (bytes : List Byte) : Request := ⟨bytes.getD 2 0, hostCrc bytes, hostBody bytes⟩

/-- R167: the cached response of the same number and CRC. -/
def cachedFor (r : Request) (s : State) : Option CacheEntry :=
  s.link.cache.find? fun e => e.number == r.number && e.crc == r.crc

/-- R167: an entry of the same number and CRC waits; one whose steps wait for a driver release waits too
(assumption 8). -/
def waitsAlready (r : Request) (s : State) : Bool :=
  (s.link.intake ++ s.link.held.toList).any fun e => e.number == r.number && e.crc == r.crc

/-- R167: the four tests on a REQUEST that arrives. -/
def arrive (r : Request) (s : State) : State :=
  match cachedFor r s with
  | some e => countLink LinkCounters.countDuplicate (queueIfRoom ⟨r.number, e.body, false⟩ s)
  | none =>
    if waitsAlready r s then countLink LinkCounters.countDuplicate s
    else if Config.intakeSize ≤ s.link.intake.length then
      let s' := queueIfRoom ⟨r.number, (Reply.plain .backoff).body, false⟩ s
      if s.link.responseRoom then countLink LinkCounters.countBackoff s' else s'
    else s.onLink fun k => { k with intake := k.intake ++ [r] }

/-- REQUEST_ARRIVAL (R165, R167, R176). -/
def execRequestArrival (byte : Byte) (s : State) : Host.Outcome State Fault Refusal :=
  .next
    (if hostByteIs .request byte false s then
      arrive (requestOf (completedHostFrame byte s)) (returnFromStall (seekHost s))
    else s)

/-- R183: the sequence number an ACK names. -/
def ackNumber (bytes : List Byte) : Half := BitVec.ofNat 16 (u16At (hostBody bytes) 0)

/-- ACK (R165, R174, R176). -/
def execAck (byte : Byte) (s : State) : Host.Outcome State Fault Refusal :=
  .next
    (if hostByteIs .ack byte false s then
      takeAck (ackNumber (completedHostFrame byte s)) (returnFromStall (seekHost s))
    else s)

end Sys2Proof.Machine
end

