-- ==== Sys2Proof/Machine/HostTransmit.lean ====
section
/-! DEFINITION. The host transmitter's rows: CTS, the start and the end of a frame, the acknowledgement and HELLO
timers, and the taking of a restart (R175, R177, R178, R180). -/

namespace Sys2Proof.Machine

/-- CTS_FALL (R177): CTS is low; with no frame in progress the next frame is chosen. -/
def execCtsFall (s : State) : Host.Outcome State Fault Refusal :=
  .next (startHostFrame (s.onLink fun k => { k with ctsLow := true }))

/-- CTS_RISE (R177): a frame in progress is not affected. -/
def execCtsRise (s : State) : Host.Outcome State Fault Refusal :=
  .next (s.onLink fun k => { k with ctsLow := false })

/-- HOST_TRANSMIT_START (R177). -/
def execHostTransmitStart (s : State) : Host.Outcome State Fault Refusal := .next (startHostFrame s)

/-- R175: after a report frame the acknowledgement timer is started afresh, if the session is OPEN and sent entries
exist. -/
def restartAckTimer (s : State) : State :=
  if s.link.session.state = .opened ∧ 0 < s.queue.sentCount then
    s.onSession fun c => { c with ackTimer := some c.timeout }
  else s

/-- R177: the frame in progress is done. -/
def endHostFrame (s : State) : State := s.onLink fun k => { k with sending := none }

/-- HOST_FRAME_END (R175, R177, R180): after RESTART's own response the restart is taken; otherwise the next frame is
chosen. -/
def execHostFrameEnd (s : State) : Host.Outcome State Fault Refusal :=
  .next
    (match s.link.sending with
    | none => s
    | some f =>
      match f.kind with
      | .restartResponse => takeRestart s
      | .report => startHostFrame (restartAckTimer (endHostFrame s))
      | .response => startHostFrame (endHostFrame s)
      | .hello => startHostFrame (endHostFrame s))

/-- R180: RESTART's own response is the frame in progress. -/
def restartLeaving (s : State) : Bool :=
  match s.link.sending with
  | none => false
  | some f => f.kind == .restartResponse

/-- RESTART_TAKEN (R180): the last byte of RESTART's response leaves, and the restart is taken as a whole. -/
def execRestartTaken (s : State) : Host.Outcome State Fault Refusal :=
  .next (if restartLeaving s then takeRestart s else s)

/-- R175: a resend run begins at the head, or at the sixth expiry in a row the session enters STALLED. -/
def expireAckTimer (s : State) : State :=
  if s.link.session.retransmissions < 5 then
    beginRun (s.onSession fun c => { c with retransmissions := c.retransmissions + 1, ackTimer := none })
  else
    countLink LinkCounters.countStall
      (s.onSession fun c => { c with state := .stalled, retransmissions := 6, ackTimer := none, run := none })

/-- ACK_TIMER_EXPIRY (R175): the timer runs in OPEN alone. -/
def execAckTimerExpiry (s : State) : Host.Outcome State Fault Refusal :=
  .next
    (if s.link.session.ackTimer.isSome ∧ s.link.session.state = .opened then expireAckTimer s else s)

/-- R178: while repetition is active and the session is CLOSED, a HELLO is set waiting and the timer started again. -/
def expireHelloTimer (s : State) : State :=
  s.onLink fun k =>
    if k.helloRepeat ∧ k.session.state = .closed then
      { k with helloWaiting := true, helloTimer := some Config.helloPeriod }
    else { k with helloTimer := none }

/-- HELLO_TIMER_EXPIRY (R178). A timer that does not run does not expire. -/
def execHelloTimerExpiry (s : State) : Host.Outcome State Fault Refusal :=
  .next (if s.link.helloTimer.isSome then expireHelloTimer s else s)

end Sys2Proof.Machine
end

