-- ==== Sys2Proof/Machine/Receive.lean ====
section
/-! DEFINITION. The named operations on a received character (R28, R34 to R37), and the delivery of a line test's
characters by the internal loop (R140). -/

namespace Sys2Proof.Machine

/-- R140: the line test, when the receiver has taken its character from the loop. -/
def Line.testHeard (ln : Line) : Option LineTest :=
  if ln.mode = .test then ln.test.map fun t => { t with delivered := true } else ln.test

/-- R28: after a character with a framing error the receiver waits for its input to return to mark; after one without,
it seeks the next edge at once. A character that belongs to a frame and had a framing error raises framing errors
(R39). In TEST the character is the loop's, which is thereby delivered (R140). -/
def receiveCharacter (l : LineId) (framingError : Bool) (s : State) : State :=
  s.onLine l fun ln =>
    { ln with
      awaitsMark := framingError
      counters := if framingError then ln.counters.countFraming else ln.counters
      test := ln.testHeard }

/-- R37: a stray character is discarded and counted; its framing error is not. -/
def receiveStray (l : LineId) (framingError : Bool) (s : State) : State :=
  s.onLine l fun ln =>
    { ln with awaitsMark := framingError, counters := ln.counters.countStray, test := ln.testHeard }

/-- R35: the inter-character timer is started with the line's timeout. -/
def holdPartial (l : LineId) (chars : List Byte) (framing : Bool) (s : State) : State :=
  s.onLine l fun ln => { ln with assembler := some ⟨chars, framing, some ln.config.intercharacter⟩ }

/-- R46: in AWAIT the address character stops the reply-start timer and begins RECEIVE. -/
def beginReply (l : LineId) (s : State) : State :=
  onExchange l (fun x => if x.phase = .await then { x with phase := .receive, timer := none } else x) s

/-- R34: an address character begins a frame; a frame in progress is first abandoned, and goes up with cause
NEW_ADDRESS. -/
def beginFrame (l : LineId) (byte : Byte) (framingError : Bool) (s : State) : State :=
  match (s.line l).assembler with
  | none => beginReply l (holdPartial l [byte] framingError s)
  | some p =>
    handUp l ⟨p.chars, p.framing, some .newAddress⟩
      (holdPartial l [byte] framingError (countLine l LineCounters.countAbandoned s))

/-- R34: the frame in progress is abandoned and goes up with its cause. -/
def abandonFrame (l : LineId) (chars : List Byte) (framing : Bool) (cause : AbandonCause) (s : State) : State :=
  handUp l ⟨chars, framing, some cause⟩
    (s.onLine l fun ln => { ln with assembler := none, counters := ln.counters.countAbandoned })

/-- R36: the counters of a complete frame. -/
def LineCounters.countFrame (c : LineCounters) (framing crcMatches : Bool) : LineCounters :=
  if !crcMatches then { c with checkErrors := bump c.checkErrors }
  else if framing then c
  else { c with goodFrames := bump c.goodFrames }

/-- R36: the frame is complete: the assembler returns to SEEKING, counts it and hands it up. -/
def completeFrame (l : LineId) (chars : List Byte) (framing : Bool) (s : State) : State :=
  let h : HandedUp := ⟨chars, framing, none⟩
  handUp l h
    (s.onLine l fun ln =>
      { ln with assembler := none, counters := ln.counters.countFrame framing h.crcMatches })

/-- The frame in COLLECTING with a character added: its bytes and its framing flag (R35). -/
def extendedFrame (l : LineId) (byte : Byte) (framingError : Bool) (s : State) : List Byte × Bool :=
  match (s.line l).assembler with
  | none => ([byte], framingError)
  | some p => (p.chars ++ [byte], p.framing || framingError)

/-- R34 to R37: the receiver takes a character as one of a class. -/
def takeCharacter (l : LineId) (k : CharacterClass) (byte : Byte) (framingError : Bool) (s : State) : State :=
  let f := extendedFrame l byte framingError s
  match k with
  | .stray => receiveStray l framingError s
  | .begins => beginFrame l byte framingError (receiveCharacter l framingError s)
  | .added => holdPartial l f.1 f.2 (receiveCharacter l framingError s)
  | .tooLong => abandonFrame l f.1 f.2 .length (receiveCharacter l framingError s)
  | .completes => completeFrame l f.1 f.2 (receiveCharacter l framingError s)

/-! ### The internal loop (R140) -/

/-- R140: the loop delivers the line test's character to the receiver, unless the receiver has it already; its first
stop bit is at mark, so it has no framing error (R22, R28). -/
def deliverLoop (l : LineId) (s : State) : State :=
  match (s.line l).loopDelivery with
  | none => s
  | some c =>
    match (s.line l).classify c.byte c.addressMark with
    | none => s
    | some k => takeCharacter l k c.byte false s

/-- R23, R140: the test's character in the shift path, which the loop has delivered, has left; what enters next it has
not. -/
def testCharacterLeft (l : LineId) (s : State) : State :=
  (deliverLoop l s).onLine l fun ln =>
    { ln with test := ln.test.map fun t => { t with charsSent := t.charsSent + 1, delivered := false } }

/-- R140: the test frame's last character, which the loop has delivered, has left; frames sent counts the frame, of the
line and of the test. -/
def testFrameLeft (l : LineId) (s : State) : State :=
  countLine l LineCounters.countSent
    ((deliverLoop l s).onLine l fun ln =>
      { ln with test := ln.test.map fun t => { t with framesSent := t.framesSent + 1, charsSent := t.charsSent + 1 } })

/-! ### Endings (R25, R65, R141) -/

/-- R25, R65, R141: the character in the shift path completes at an ending, and the loop delivers that of a line test.
If it was the last of its frame, the frame has left the line port. -/
def completeShift (l : LineId) (s : State) : State :=
  match (s.line l).exchange, (s.line l).test with
  | some x, _ =>
    if x.charsSent + 1 < x.frame.length then onExchange l (fun x => { x with charsSent := x.charsSent + 1 }) s
    else exchangeFrameLeft l x s
  | none, some t =>
    if t.charsSent + 1 < (testFrame t.index).length then testCharacterLeft l s else testFrameLeft l s
  | none, none => s

end Sys2Proof.Machine
end

