-- ==== Sys2Proof/Machine/LineReceive.lean ====
section
/-! DEFINITION. The rows of a line port's receiver: characters, frames, edges, the input level and STUCK (Chapter 2,
R130). A row on a received character is the event of a character of its class (R34 to R37); Line.receipt names the row
of a character by its samples (R28). In TEST the character is the one on the internal loop (R140): its row may come
before the row of its having left, which delivers it otherwise (assumption 25). -/

namespace Sys2Proof.Machine

/-- R26, R34 to R37, R140: the event of a character of a class, where the receiver takes it as one. -/
def characterEvent (l : LineId) (k : CharacterClass) (byte : Byte) (addressMark framingError : Bool) (s : State) :
    State :=
  if (s.line l).takes k byte addressMark framingError then takeCharacter l k byte framingError s else s

/-- ADDRESS_CHARACTER_RECEIVED (R34, R46). -/
def execAddressCharacterReceived (l : LineId) (byte : Byte) (framingError : Bool) (s : State) :
    Host.Outcome State Fault Refusal :=
  .next (characterEvent l .begins byte true framingError s)

/-- FRAME_CHARACTER_RECEIVED (R35): the character is added and the inter-character timer started again. -/
def execFrameCharacterReceived (l : LineId) (byte : Byte) (framingError : Bool) (s : State) :
    Host.Outcome State Fault Refusal :=
  .next (characterEvent l .added byte false framingError s)

/-- LENGTH_ABANDON (R34): a LENGTH above 32 abandons the frame as soon as it is received. -/
def execLengthAbandon (l : LineId) (byte : Byte) (framingError : Bool) (s : State) :
    Host.Outcome State Fault Refusal :=
  .next (characterEvent l .tooLong byte false framingError s)

/-- FRAME_RECEIVED (R36): the second CRC character completes the frame. -/
def execFrameReceived (l : LineId) (byte : Byte) (framingError : Bool) (s : State) :
    Host.Outcome State Fault Refusal :=
  .next (characterEvent l .completes byte false framingError s)

/-- STRAY_CHARACTER (R37). -/
def execStrayCharacter (l : LineId) (byte : Byte) (addressMark framingError : Bool) (s : State) :
    Host.Outcome State Fault Refusal :=
  .next (characterEvent l .stray byte addressMark framingError s)

/-- R35: the partial frame whose inter-character timer runs. -/
def timedFrame (l : LineId) (s : State) : Option PartialFrame := (s.line l).assembler.filter (·.timer.isSome)

/-- INTERCHARACTER_TIMEOUT (R35): the partial frame is abandoned and handed up. -/
def execIntercharacterTimeout (l : LineId) (s : State) : Host.Outcome State Fault Refusal :=
  .next
    (match timedFrame l s with
    | none => s
    | some p => abandonFrame l p.chars p.framing .intercharacter s)

/-- START_BIT_ACCEPTED (R27, R35): a character begins; in COLLECTING the inter-character timer stops. -/
def execStartBitAccepted (l : LineId) (s : State) : Host.Outcome State Fault Refusal :=
  .next
    (if (s.line l).startBitComes then
      s.onLine l fun ln => { ln with assembler := ln.assembler.map fun p => { p with timer := none } }
    else s)

/-- GLITCH (R27): a discarded edge is counted, and nothing else happens. -/
def execGlitch (l : LineId) (s : State) : Host.Outcome State Fault Refusal :=
  .next
    (if (s.line l).glitchComes then countLine l (fun c => { c with glitches := bump c.glitches }) s else s)

/-- RECEIVE_INPUT_LEVEL_CHANGE (R28, R29, R30): the level of the receive pin, from which the space run and the mark time
are read; a return to mark ends the receiver's wait for mark. In TEST the receiver ignores the pin (R26). -/
def execReceiveInputLevelChange (l : LineId) (mark : Bool) (s : State) : Host.Outcome State Fault Refusal :=
  .next
    (s.onLine l fun ln =>
      { ln with rxMark := mark, awaitsMark := if mark ∧ ln.mode ≠ .test then false else ln.awaitsMark })

/-- R29: STUCK is raised: counted, the condition set, the notice set. -/
def raiseStuck (l : LineId) (s : State) : State :=
  raiseLineNotice l .stuck
    (s.onLine l fun ln =>
      { ln with stuck := true, counters := { ln.counters with stuckEvents := bump ln.counters.stuckEvents } })

/-- R29, R130: in MONITOR the partial frame that STUCK abandons is handed to capture. -/
def stuckInMonitor (l : LineId) (s : State) : State :=
  match (s.line l).assembler with
  | none => s
  | some p => abandonFrame l p.chars p.framing .stuck s

/-- R29, R66, R130: the effects of raising STUCK. In ACTIVE a partial frame is abandoned, the exchange in flight ends
LINE_FAULT and a running scan ends LINE_FAULT. -/
def takeStuck (l : LineId) (s : State) : State :=
  let s := raiseStuck l s
  if (s.line l).mode = .monitor then stuckInMonitor l s else endScan l .lineFault (cutOff l s)

/-- STUCK_RAISED (R29): a space run in progress has lasted 2 character times. -/
def execStuckRaised (l : LineId) (s : State) : Host.Outcome State Fault Refusal :=
  .next (if (s.line l).spaceRun ∧ !(s.line l).stuck then takeStuck l s else s)

/-- STUCK_CLEARED (R30): the input has been at mark for 1 character time. -/
def execStuckCleared (l : LineId) (s : State) : Host.Outcome State Fault Refusal :=
  .next
    (if (s.line l).stuck ∧ (s.line l).measuresStuck ∧ (s.line l).rxMark then
      raiseLineNotice l .stuckCleared (s.onLine l fun ln => { ln with stuck := false })
    else s)

end Sys2Proof.Machine
end

