-- ==== Sys2Proof/Machine/LineRequests.lean ====
section
/-! DEFINITION. The requests of the line ports (Chapter 7). -/

namespace Sys2Proof.Machine

/-- A line request: BAD_PARAMETER when the line is not A or B (R182), and otherwise what it does with the line. -/
def withLine (body : List Byte) (s : State) (f : LineId → Applied) : Applied :=
  match lineOf (u8At body 1) with
  | none => refuse .badParameter s
  | some l => f l

/-- R25, R65, R141: with a character in the shift path the rest of the request waits for it to complete. -/
def afterShift (l : LineId) (ending : LineEnding) (now : State → State) (s : State) : Applied :=
  if (s.line l).transmitting then ⟨s.onLine l fun ln => { ln with ending := some ending }, none⟩
  else answer .ok (now s)

/-- R126. -/
def applySetLineMode (body : List Byte) (s : State) : Applied :=
  withLine body s fun l =>
    match settableMode (u8At body 2) with
    | none => refuse .badParameter s
    | some m =>
      if (s.line l).mode = m then answer .ok s else afterShift l (.modeChange m) (changeMode l m) s

/-- SET_LINE_MODE (R126). -/
def execSetLineMode (s : State) : Host.Outcome State Fault Refusal :=
  .next (takeRequest 0x40 false applySetLineMode s)

/-- R129. -/
def applyConfigureLine (body : List Byte) (s : State) : Applied :=
  withLine body s fun l =>
    match configParams body with
    | none => refuse .badParameter s
    | some config =>
      if (s.line l).mode ≠ .off then refuse .lineMode s
      else answer .ok (s.onLine l fun ln => { ln with config })

/-- CONFIGURE_LINE (R129). -/
def execConfigureLine (s : State) : Host.Outcome State Fault Refusal :=
  .next (takeRequest 0x41 false applyConfigureLine s)

/-- R131. -/
def applyResetLine (body : List Byte) (s : State) : Applied :=
  withLine body s fun l => afterShift l .lineReset (resetLineNow l) s

/-- RESET_LINE (R131). -/
def execResetLine (s : State) : Host.Outcome State Fault Refusal :=
  .next (takeRequest 0x42 false applyResetLine s)

/-- R134: the scan record a start fills in; the scan interleave count becomes 0. -/
def startScan (l : LineId) (first last : Nat) (s : State) : State :=
  (grant s).onLine l fun ln => { ln with scan := some ⟨first, last, first, [], false⟩, scanCount := 0 }

/-- R134: the checks in order. -/
def applyStartScan (body : List Byte) (s : State) : Applied :=
  let first := u8At body 2
  let last := u8At body 3
  withLine body s fun l =>
    if !addressInRange first ∨ !addressInRange last ∨ last < first ∨ 32 < last + 1 - first then refuse .badParameter s
    else if (s.line l).scan.isSome ∨ (s.line l).test.isSome then refuse .lineBusy s
    else if (s.line l).mode ≠ .active ∨ (s.line l).stuck then refuse .lineMode s
    else if !s.queue.hasSpace then refuse .noReportSpace s
    else answer .accepted (startScan l first last s)

/-- START_SCAN (R134). -/
def execStartScan (s : State) : Host.Outcome State Fault Refusal :=
  .next (takeRequest 0x43 false applyStartScan s)

/-- R138. -/
def applyCancelScan (body : List Byte) (s : State) : Applied :=
  withLine body s fun l =>
    if (s.line l).scan.isNone then refuse .noScan s else answer .ok (endScan l .cancelled s)

/-- CANCEL_SCAN (R138). -/
def execCancelScan (s : State) : Host.Outcome State Fault Refusal :=
  .next (takeRequest 0x44 false applyCancelScan s)

/-- R139: mode TEST, the test record filled in, the first frame going out. The receiver is enabled from the loop. DESIGN
CHOICE (assumption 9): where a character that RESTART left in the shift path still completes, the test starts all the
same, the driver stays asserted until that character's DRIVER_RELEASE, and the test's first character follows it. -/
def startTest (l : LineId) (count : Nat) (s : State) : State :=
  raiseLineNotice l .testStarted
    ((grant s).onLine l fun ln =>
      { ln with
        mode := .test, awaitsMark := false
        test := some ⟨count, 0, 0, 0, none, .sending, 0, false, none, none⟩ })

/-- R139: the checks in order. -/
def applyStartLineTest (body : List Byte) (s : State) : Applied :=
  withLine body s fun l =>
    if u8At body 2 = 0 then refuse .badParameter s
    else if (s.line l).scan.isSome ∨ (s.line l).test.isSome then refuse .lineBusy s
    else if (s.line l).mode ≠ .off then refuse .lineMode s
    else if !s.queue.hasSpace then refuse .noReportSpace s
    else answer .accepted (startTest l (u8At body 2) s)

/-- START_LINE_TEST (R139). -/
def execStartLineTest (s : State) : Host.Outcome State Fault Refusal :=
  .next (takeRequest 0x45 false applyStartLineTest s)

/-- R128, R186: the ten parameters in order. -/
def configBytes (c : LineConfig) : List Byte :=
  [b8 c.rate.code, b8 c.stopBits, b8 c.replyStart, b8 c.intercharacter, b8 c.lineGap] ++ le16 c.probeInterval
    ++ le16 c.busyHoldoff ++ [b8 c.busyLimit, b8 c.commandStreak, b8 c.scanStreak]

/-- R39, R186: the ten line counters in order. -/
def lineCounterBytes (c : LineCounters) : List Byte :=
  le16 c.framesSent ++ le16 c.goodFrames ++ le16 c.checkErrors ++ le16 c.framingErrors ++ le16 c.glitches
    ++ le16 c.abandonedFrames ++ le16 c.strayCharacters ++ le16 c.stuckEvents ++ le16 c.capturesLost
    ++ le16 c.attemptsFailed

/-- R186, offsets 41 to 45: the exchange; while IDLE the target address and the attempt are free values
(assumption 4). -/
def exchangeBytes (x : Option Exchange) (freeCount : Nat) : List Byte :=
  match x with
  | some x => [b8 (phaseCode (some x.phase)), b8 x.kind.code, b8 (orNone x.station), b8 x.target, b8 x.attempt]
  | none => [b8 (phaseCode none), 0, 0xFF, Config.freeByte freeCount, Config.freeByte (freeCount + 1)]

/-- R186: the responders as a map with bit i for the address first + i. -/
def responderMap (sc : Scan) : Nat := (sc.responders.map fun a => 2 ^ (a - sc.first)).sum

/-- R186, offsets 47 to 54: the work running. -/
def workBytes (ln : Line) : List Byte :=
  match ln.scan, ln.test with
  | some sc, _ =>
    [1, b8 sc.first, b8 sc.last, b8 (if sc.last < sc.next then 0 else sc.next)] ++ le16 (responderMap sc)
      ++ le16 (responderMap sc / 65536)
  | none, some t =>
    [2, b8 t.count, b8 t.index, b8 t.framesSent, b8 t.framesMatched, b8 (orNone t.firstMismatch), 0, 0]
  | none, none => [0, 0, 0, 0, 0, 0, 0, 0]

/-- R142, R186: view 0. -/
def lineView0 (l : LineId) (s : State) : List Byte :=
  let ln := s.line l
  [b8 (lineCode l), 0, b8 ln.mode.code, b8 (flagBit ln.stuck 0 + flagBit ln.notice 1), b8 (lineCauseCode ln.noticeCause)]
    ++ configBytes ln.config ++ lineCounterBytes ln.counters
    ++ [b8 (orNone ln.walk), b8 ln.commandCount, b8 ln.scanCount]
    ++ exchangeBytes ln.exchange s.freeCount ++ [b8 (s.pool.orderList l).length] ++ workBytes ln

/-- R186: one byte of the poll ring map: bit n for station `base` + n. -/
def ringByte (l : LineId) (base : Nat) (s : State) : Byte :=
  b8 (((List.range 8).map fun i =>
    match s.station (base + i) with
    | none => 0
    | some e => flagBit (e.inRing l) i).sum)

/-- R142, R186: view 1. -/
def lineView1 (l : LineId) (s : State) : List Byte :=
  [b8 (lineCode l), 1] ++ (List.range 6).map (fun i => ringByte l (8 * i) s)
    ++ [b8 (s.line l).probeList.length] ++ (s.line l).probeList.map b8

/-- R142. The free bytes of view 0 are used up; nothing else changes. -/
def applyReadLineStatus (body : List Byte) (s : State) : Applied :=
  withLine body s fun l =>
    match u8At body 2 with
    | 0 =>
      ⟨if (s.line l).exchange.isNone then { s with freeCount := s.freeCount + 2 } else s, some ⟨.ok, lineView0 l s⟩⟩
    | 1 => ⟨s, some ⟨.ok, lineView1 l s⟩⟩
    | _ => refuse .badParameter s

/-- READ_LINE_STATUS (R142). -/
def execReadLineStatus (s : State) : Host.Outcome State Fault Refusal :=
  .next (takeRequest 0x46 false applyReadLineStatus s)

/-- R142. -/
def applyClearLineCounters (body : List Byte) (s : State) : Applied :=
  withLine body s fun l => answer .ok (countLine l (fun _ => .zero) s)

/-- CLEAR_LINE_COUNTERS (R142). -/
def execClearLineCounters (s : State) : Host.Outcome State Fault Refusal :=
  .next (takeRequest 0x47 false applyClearLineCounters s)

end Sys2Proof.Machine
end

