-- ==== Sys2Proof/Machine/Schedule.lean ====
section
/-! DEFINITION. The line scheduler's choice (Chapter 4): what each of its four steps would yield, and what taking it
does. -/

namespace Sys2Proof.Machine

/-! ### What each step finds -/

/-- R135: the lowest address from `next` up, with `fuel` addresses left in the range, that no defined station claims on
the line; none when every one is claimed. -/
def nextUnclaimed (s : State) (l : LineId) (next : Nat) : Nat → Option Nat
  | 0 => none
  | fuel + 1 => if s.addressClaimed l next then nextUnclaimed s l (next + 1) fuel else some next

/-- R73, R135: the address a running scan names; none when none remains. -/
def scanNames (s : State) (l : LineId) (sc : Scan) : Option Nat := nextUnclaimed s l sc.next (sc.last + 1 - sc.next)

/-- R74: a record of the order list is eligible. -/
def recordEligible (s : State) (r : CommandRecord) : Bool :=
  match r.station with
  | none => true
  | some n =>
    match s.station n with
    | none => false
    | some e =>
      (e.state == .online || e.state == .suspect) && e.holdoffTimer.isNone && !e.pendingDisable
        && s.pool.oldestOf n == some r.tag

/-- R74: the first eligible record of the line's order list. -/
def eligibleRecord (s : State) (l : LineId) : Option CommandRecord := (s.pool.orderList l).find? (recordEligible s)

/-- R76: a station of the line's ring is eligible for a poll. -/
def pollEligible (s : State) (l : LineId) (n : Nat) : Bool :=
  match s.station n with
  | none => false
  | some e => e.inRing l && e.pollDue && e.holdoffTimer.isNone && !e.pendingDisable

/-- R76: the station numbers in the order of the walk: from the number after the walk position, wrapping from 47 to 0,
to the walk position itself. -/
def walkOrder (walk : Option Nat) : List Nat :=
  match walk with
  | none => List.range Config.stations
  | some w => (List.range Config.stations).map fun i => (w + 1 + i) % Config.stations

/-- R76: the first eligible station of the walk. -/
def eligiblePoll (s : State) (l : LineId) : Option Nat := (walkOrder (s.line l).walk).find? (pollEligible s l)

/-- R83: a station of the probe list may be probed. -/
def probeEligible (s : State) (n : Nat) : Bool :=
  match s.station n with
  | none => false
  | some e => e.probeTimer == some 0 && !e.pendingDisable

/-- R83: the first station of the line's probe list that may be probed. -/
def eligibleProbe (s : State) (l : LineId) : Option Nat := (s.line l).probeList.find? (probeEligible s)

/-- R72: step 3 is startable: it would yield, its reservation included. -/
def pollStartable (s : State) (l : LineId) : Bool := (eligiblePoll s l).isSome && s.queue.hasSpace

/-- R72: step 4 is startable. -/
def probeStartable (s : State) (l : LineId) : Bool := (eligibleProbe s l).isSome && s.queue.hasSpace

/-- R75: the command streak allows a command. -/
def streakAllows (s : State) (l : LineId) : Bool :=
  (s.line l).commandCount < (s.line l).config.commandStreak || !pollStartable s l

/-- R72: step 2 is startable. -/
def commandStartable (s : State) (l : LineId) : Bool := (eligibleRecord s l).isSome && streakAllows s l

/-- R73: the scan interleave lets the scan take the line: the count is below the scan streak, or none of steps 2 to 4
is startable. -/
def interleaveAllows (s : State) (l : LineId) : Bool :=
  (s.line l).scanCount < (s.line l).config.scanStreak
    || !(commandStartable s l || pollStartable s l || probeStartable s l)

/-! ### Taking a step -/

/-- R73, R135: the named address is consumed and a ROLL_CALL to it starts (R42); the counts of R70. -/
def takeRollCall (l : LineId) (sc : Scan) (address : Nat) (s : State) : State :=
  startExchange l .rollCall none address none false false [] <|
    s.onLine l fun ln =>
      { ln with
        scan := some { sc with next := address + 1, rollCall := true }
        scanCount := min (ln.scanCount + 1) ln.config.scanStreak
        commandCount := 0 }

/-- R74, R42: the record is taken as a COMMAND or BROADCAST; the counts of R70. -/
def takeRecord (l : LineId) (r : CommandRecord) (s : State) : State :=
  let s := s.onLine l fun ln =>
    { ln with commandCount := min (ln.commandCount + 1) ln.config.commandStreak, scanCount := 0 }
  match r.station with
  | none => startExchange l .broadcast none 0 (some r.tag) false false r.payload s
  | some n =>
    match s.station n with
    | none => s
    | some e => startExchange l .command (some n) e.address (some r.tag) false e.toggle r.payload s

/-- R77: a poll is taken with a granted reservation. -/
def takePoll (l : LineId) (n : Nat) (s : State) : State :=
  match s.station n with
  | none => s
  | some e =>
    startExchange l .poll (some n) e.address none true e.toggle [] <|
      ((grant s).setStation n (some { e with pollDue := false, pollTimer := none })).onLine l fun ln =>
        { ln with walk := some n, commandCount := 0, scanCount := 0 }

/-- R83, R117: a probe is taken with a granted reservation; the station's toggle becomes 0. -/
def takeProbe (l : LineId) (n : Nat) (s : State) : State :=
  match s.station n with
  | none => s
  | some e =>
    startExchange l .probe (some n) e.address none true false [] <|
      ((grant s).setStation n
        (some
          { e with
            probeTimer := some (s.line l).config.probeInterval
            toggle := false
            counters := { e.counters with probesSent := bump e.counters.probesSent } })).onLine l fun ln =>
        { ln with commandCount := 0, scanCount := 0 }

/-- R72: steps 2, 3 and 4 in their order; the first that yields ends the choice. -/
def chooseWork (l : LineId) (s : State) : State :=
  if commandStartable s l then
    match eligibleRecord s l with
    | none => s
    | some r => takeRecord l r s
  else if pollStartable s l then
    match eligiblePoll s l with
    | none => s
    | some n => takePoll l n s
  else if probeStartable s l then
    match eligibleProbe s l with
    | none => s
    | some n => takeProbe l n s
  else s

/-- R72, R73: step 1, then the others. A scan with no address left ends COMPLETE (R136); an address passed as skipped
is not looked at again, and a named address that is not consumed is named again at the next choice (R135). -/
def choose (l : LineId) (s : State) : State :=
  match (s.line l).scan with
  | none => chooseWork l s
  | some sc =>
    match scanNames s l sc with
    | none => chooseWork l (endScan l .complete s)
    | some address =>
      if interleaveAllows s l then takeRollCall l sc address s
      else chooseWork l (s.onLine l fun ln => { ln with scan := some { sc with next := address } })

/-- A choice on a free line would take or end something. -/
def choiceWorks (s : State) (l : LineId) : Bool :=
  (s.line l).free
    && ((s.line l).scan.isSome || commandStartable s l || pollStartable s l || probeStartable s l)

end Sys2Proof.Machine
end

