-- ==== Sys2Proof/Machine/LineTransmit.lean ====
section
/-! DEFINITION. The rows of the line scheduler, the transmitter and the exchange engine's timers (Chapters 3 and 4), and
of the line test's timers (R140). -/

namespace Sys2Proof.Machine

/-- SCHEDULER_CHOICE (R71, R72): a free line chooses. -/
def execSchedulerChoice (l : LineId) (s : State) : Host.Outcome State Fault Refusal :=
  .next (if (s.line l).free then choose l s else s)

/-- The exchange in flight on a line, when it stands in a phase. -/
def exchangeIn (l : LineId) (p : Phase) (s : State) : Option Exchange :=
  (s.line l).exchange.filter (·.phase == p)

/-- The line test, when it stands in a phase. -/
def testIn (l : LineId) (p : TestPhase) (s : State) : Option LineTest := (s.line l).test.filter (·.phase == p)

/-- CHARACTER_SENT (R44, R140): a character other than the frame's last has left; that of a line test, which the loop
delivers as it is sent, has reached the receiver. While a character waits to complete at an ending, no other goes out;
of a line test that has started since a RESTART that is a DESIGN CHOICE (assumption 9). -/
def execCharacterSent (l : LineId) (s : State) : Host.Outcome State Fault Refusal :=
  .next
    (if (s.line l).ending.isSome then s
    else
      match exchangeIn l .transmit s, testIn l .sending s with
      | some x, _ =>
        if x.charsSent + 1 < x.frame.length then onExchange l (fun x => { x with charsSent := x.charsSent + 1 }) s
        else s
      | none, some t =>
        if t.charsSent + 1 < (testFrame t.index).length then testCharacterLeft l s else s
      | none, none => s)

/-- FRAME_SENT (R44, R59, R140): the frame's last character leaves, and that of a line test has reached the receiver;
GUARD begins, or the line test's AWAITING. -/
def execFrameSent (l : LineId) (s : State) : Host.Outcome State Fault Refusal :=
  .next
    (if (s.line l).ending.isSome then s
    else
      match exchangeIn l .transmit s, testIn l .sending s with
      | some x, _ => if x.charsSent + 1 = x.frame.length then exchangeFrameLeft l x s else s
      | none, some t =>
        if t.charsSent + 1 = (testFrame t.index).length then testAwaits l (testFrameLeft l s) else s
      | none, none => s)

/-- R65, R126, R131: the request that waited is answered. -/
def answerHeld (s : State) : State :=
  match s.link.held with
  | none => s
  | some r => respond r (.plain .ok) false (s.onLink fun k => { k with held := none })

/-- R25, R26: the driver, if asserted, is released and nothing more waits at the transmitter. In ACTIVE the release
enables the receiver, which seeks an edge once its input is at mark. -/
def releaseDriver (l : LineId) (s : State) : State :=
  s.onLine l fun ln =>
    { ln with
      driver := false
      ending := none
      awaitsMark := if ln.mode = .active ∧ ln.driver then !ln.rxMark else ln.awaitsMark }

/-- DRIVER_RELEASE (R23, R25, R65, R69, R141): the character in the shift path is complete, the driver is released, and
what waited for it is done: the rest of a SET_LINE_MODE or RESET_LINE, with its response. After RESTART only the
character and the driver are left. -/
def execDriverRelease (l : LineId) (s : State) : Host.Outcome State Fault Refusal :=
  .next
    (match (s.line l).ending with
    | none => s
    | some (.restart _ _) => releaseDriver l s
    | some (.modeChange m) => answerHeld (changeMode l m (releaseDriver l (completeShift l s)))
    | some .lineReset => answerHeld (resetLineNow l (releaseDriver l (completeShift l s))))

/-- R24, R45: the driver is released and the receiver enabled; the engine enters AWAIT, or GAP for a BROADCAST. -/
def endGuard (l : LineId) (x : Exchange) (s : State) : State :=
  let s := s.onLine l fun ln => { ln with driver := false, awaitsMark := !ln.rxMark }
  if x.kind = .broadcast then enterGap l s
  else
    s.onLine l fun ln =>
      { ln with exchange := ln.exchange.map fun x => { x with phase := .await, timer := some ln.config.replyStart } }

/-- GUARD_END (R45). -/
def execGuardEnd (l : LineId) (s : State) : Host.Outcome State Fault Refusal :=
  .next
    (match exchangeIn l .guard s with
    | none => s
    | some x => endGuard l x s)

/-- REPLY_START_TIMEOUT (R46, R53, R60): in AWAIT the attempt fails TIMEOUT, or a ROLL_CALL is absent. -/
def execReplyStartTimeout (l : LineId) (s : State) : Host.Outcome State Fault Refusal :=
  .next
    (match exchangeIn l .await s with
    | none => s
    | some x => if x.kind = .rollCall then endRollCall l false s else failAttempt l .timeout s)

/-- R48: the record the exchange carries has cancel pending. -/
def carriedCancelPending (x : Exchange) (s : State) : Bool :=
  match x.record.bind s.pool.find with
  | none => false
  | some r => r.cancelPending

/-- R48: the gap timer has expired: the exchange ends, a pending cancel completes the record, or the same frame is sent
again (R55). -/
def expireGap (l : LineId) (x : Exchange) (s : State) : State :=
  if x.outcome.isSome then endExchange l s
  else if carriedCancelPending x s then endExchange l (completeCarried x .cancelled [] s)
  else beginAttempt l { x with attempt := x.attempt + 1 } s

/-- GAP_EXPIRY (R48, R55, R64). -/
def execGapExpiry (l : LineId) (s : State) : Host.Outcome State Fault Refusal :=
  .next
    (match exchangeIn l .gap s with
    | none => s
    | some x => expireGap l x s)

/-- TEST_AWAIT_TIMEOUT (R140): the frame is judged not matched. -/
def execTestAwaitTimeout (l : LineId) (s : State) : Host.Outcome State Fault Refusal :=
  .next
    (match testIn l .awaiting s with
    | none => s
    | some _ => judgeTest l false s)

/-- R140: the next test frame enters SENDING. -/
def nextTestFrame (l : LineId) (t : LineTest) (s : State) : State :=
  s.onLine l fun ln =>
    { ln with
      test := some
        { t with
          index := t.index + 1, phase := .sending, charsSent := 0, delivered := false, handed := none, timer := none } }

/-- TEST_GAP_EXPIRY (R140). -/
def execTestGapExpiry (l : LineId) (s : State) : Host.Outcome State Fault Refusal :=
  .next
    (match testIn l .gap s with
    | none => s
    | some t => nextTestFrame l t s)

end Sys2Proof.Machine
end

