-- ==== Sys2Proof/Machine/LinkRequests.lean ====
section
/-! DEFINITION. The requests the host link and the report queue own: IDENTIFY, the session requests, RESTART,
READ_LINK_STATUS, READ_QUEUE_STATUS, and a request of unknown code (R160, R168, R171, R172, R179, R180). -/

namespace Sys2Proof.Machine

/-- R179, R186: what IDENTIFY returns. -/
def identifyData : List Byte :=
  le16 Config.vendorCode ++ le16 Config.partCode
    ++ [b8 Config.revision, b8 Config.stations, b8 Config.commandRecords, b8 Config.reportSlots, 2, 4]

/-- R179. -/
def applyIdentify (_ : List Byte) (s : State) : Applied := ⟨s, some ⟨.ok, identifyData⟩⟩

/-- IDENTIFY (R179): answered in every session state. -/
def execIdentify (s : State) : Host.Outcome State Fault Refusal := .next (takeRequest 0x01 true applyIdentify s)

/-- R159: the queue's entries are emptied; reservations and counter are kept. -/
def discardEntries (s : State) : State := s.onQueue fun q => { q with entries := [] }

/-- R171, step 4, and R178: HELLO repetition stops and a waiting HELLO is withdrawn. -/
def stopHello (s : State) : State :=
  s.onLink fun k => { k with helloRepeat := false, helloTimer := none, helloWaiting := false }

/-- R171: the steps of OPEN_SESSION. -/
def openSession (window timeout : Nat) (discard : Bool) (s : State) : State :=
  let s := clearSentMarks (if discard then discardEntries s else s)
  stopHello (s.onSession fun c => { c.settle with window, timeout, state := .opened })

/-- R171: window 1 to 16, timeout 50 to 5000 ms. -/
def applyOpenSession (body : List Byte) (s : State) : Applied :=
  let window := u8At body 1
  let timeout := u16At body 2
  if 1 ≤ window ∧ window ≤ 16 ∧ 50 ≤ timeout ∧ timeout ≤ 5000 then
    let s := openSession window timeout (flagAt body 4) s
    ⟨s, some ⟨.ok, le16 s.queue.oldestSeq.toNat⟩⟩
  else refuse .badParameter s

/-- OPEN_SESSION (R171): taken in every session state. -/
def execOpenSession (s : State) : Host.Outcome State Fault Refusal := .next (takeRequest 0x02 true applyOpenSession s)

/-- R172. -/
def applyCloseSession (_ : List Byte) (s : State) : Applied :=
  answer .ok ((clearSentMarks s).onSession fun c => { c.settle with state := .closed })

/-- CLOSE_SESSION (R172). -/
def execCloseSession (s : State) : Host.Outcome State Fault Refusal := .next (takeRequest 0x03 false applyCloseSession s)

/-- R180: the restart waits for its response to leave, and no further request is taken meanwhile. -/
def applyRestart (_ : List Byte) (s : State) : Applied :=
  answer .ok (s.onLink fun k => { k with restartWaiting := true })

/-- RESTART (R180). -/
def execRestart (s : State) : Host.Outcome State Fault Refusal := .next (takeRequest 0x04 false applyRestart s)

/-- R166, R186: the nine link counters in order. -/
def linkCounterBytes (c : LinkCounters) : List Byte :=
  le16 c.bytesDiscarded ++ le16 c.badFrames ++ le16 c.frameTimeouts ++ le16 c.duplicateRequests ++ le16 c.backoffs
    ++ le16 c.responsesDropped ++ le16 c.strayAcks ++ le16 c.retransmissionRuns ++ le16 c.stalls

/-- R186: the resend position, 0 when no run is in progress. -/
def positionCode : Option Half → Nat
  | none => 0
  | some p => p.toNat

/-- R179, R186: what READ_LINK_STATUS returns. -/
def linkStatusData (k : Link) : List Byte :=
  [b8 (hostRateCode k.rate1 k.rate0), b8 (flagBit k.rate0 0 + flagBit k.rate1 1), b8 k.session.state.code,
      b8 k.session.window]
    ++ le16 k.session.timeout ++ [b8 k.session.retransmissions] ++ le16 (timerCode k.session.ackTimer)
    ++ le16 (positionCode k.session.run)
    ++ [b8 (flagBit k.session.run.isSome 0 + flagBit k.helloRepeat 1 + flagBit k.hold 2 + flagBit k.ctsLow 3),
      b8 k.intake.length, b8 k.responses.length]
    ++ linkCounterBytes k.counters

/-- R179: the counters are cleared after they have been read. -/
def applyReadLinkStatus (body : List Byte) (s : State) : Applied :=
  ⟨if flagAt body 1 then countLink (fun _ => .zero) s else s, some ⟨.ok, linkStatusData s.link⟩⟩

/-- READ_LINK_STATUS (R179). -/
def execReadLinkStatus (s : State) : Host.Outcome State Fault Refusal :=
  .next (takeRequest 0x05 false applyReadLinkStatus s)

/-- R160: the lines for which a condition holds. -/
def countLines (s : State) (p : Line → Bool) : Nat :=
  (if p s.lineA then 1 else 0) + (if p s.lineB then 1 else 0)

/-- R150: the line's exchange holds a reservation. -/
def Line.exchangeHolds (ln : Line) : Bool :=
  match ln.exchange with
  | none => false
  | some x => x.holdsReservation

/-- R160: the number of station notice flags set. -/
def stationNotices (s : State) : Nat :=
  (s.stations.toList.filter fun e => match e with | none => false | some e => e.notice).length

/-- R160, R186: what READ_QUEUE_STATUS returns. -/
def queueStatusData (s : State) : List Byte :=
  [b8 s.queue.entries.length, b8 s.queue.reservations, b8 s.pool.records.length,
      b8 (countLines s fun ln => ln.scan.isSome), b8 (countLines s fun ln => ln.test.isSome),
      b8 (countLines s Line.exchangeHolds), b8 (Config.reportSlots - s.queue.load), b8 s.queue.unsentCount,
      b8 s.queue.sentCount]
    ++ le16 s.queue.oldestSeq.toNat ++ le16 s.queue.seqCounter.toNat ++ le16 s.lineA.counters.capturesLost
    ++ le16 s.lineB.counters.capturesLost
    ++ [b8 (flagBit s.lineA.notice 0 + flagBit s.lineB.notice 1), b8 (stationNotices s)]

/-- R160. -/
def applyReadQueueStatus (_ : List Byte) (s : State) : Applied := ⟨s, some ⟨.ok, queueStatusData s⟩⟩

/-- READ_QUEUE_STATUS (R160). -/
def execReadQueueStatus (s : State) : Host.Outcome State Fault Refusal :=
  .next (takeRequest 0x06 false applyReadQueueStatus s)

/-- UNKNOWN_REQUEST_CODE (R168, R184): the head of the intake has an unknown request code or an empty body, and is
answered BAD_REQUEST. -/
def execUnknownRequestCode (s : State) : Host.Outcome State Fault Refusal :=
  .next
    (match s.link.intake with
    | [] => s
    | r :: rest =>
      if s.link.canTake ∧ requestLength r.body = none then
        respond r (.plain .badRequest) false (s.onLink fun k => { k with intake := rest })
      else s)

end Sys2Proof.Machine
end

