-- ==== Sys2Proof/Machine/OutputRequests.lean ====
section
/-! DEFINITION. The requests of the discrete outputs (R143, R144). -/

namespace Sys2Proof.Machine

/-- R144: write the latch of each output whose mask bit is 1. -/
def writeLatches (mask : Nat) (value : Bool) (s : State) : State :=
  { s with outputs := s.outputs.mapFinIdx fun i o _ => if mask.testBit i then { o with latch := value } else o }

/-- R144: a mask request. -/
def applyMask (value : Bool) (body : List Byte) (s : State) : Applied :=
  if 15 < u8At body 1 then refuse .badParameter s else answer .ok (writeLatches (u8At body 1) value s)

/-- SET_OUTPUTS (R144). -/
def execSetOutputs (s : State) : Host.Outcome State Fault Refusal :=
  .next (takeRequest 0x50 false (applyMask true) s)

/-- CLEAR_OUTPUTS (R144). -/
def execClearOutputs (s : State) : Host.Outcome State Fault Refusal :=
  .next (takeRequest 0x51 false (applyMask false) s)

/-- R144: assign a function to an output; its latch is kept. -/
def assignOutput (index : Nat) (f : OutputFunction) (s : State) : State :=
  { s with outputs := s.outputs.mapFinIdx fun i o _ => if i = index then { o with function := f } else o }

/-- R144. -/
def applyAssignOutput (body : List Byte) (s : State) : Applied :=
  match functionOf (u8At body 2) with
  | none => refuse .badParameter s
  | some f => if 3 < u8At body 1 then refuse .badParameter s else answer .ok (assignOutput (u8At body 1) f s)

/-- ASSIGN_OUTPUT (R144). -/
def execAssignOutput (s : State) : Host.Outcome State Fault Refusal :=
  .next (takeRequest 0x52 false applyAssignOutput s)

end Sys2Proof.Machine
end

