-- ==== Sys2Proof/Machine/Power.lean ====
section
/-! DEFINITION. Power-on: the meanings of POWER_ON and POWER_ON_RESET_END. -/

namespace Sys2Proof.Machine

/-- The link while power-on reset is in force (R40, R181): HELLO waits only once the reset has ended. The straps last
read and the level of CTS stay. -/
def Link.inPowerOn (k : Link) : Link :=
  { Link.powerOn with
    rate1 := k.rate1, rate0 := k.rate0, ctsLow := k.ctsLow, helloWaiting := false, helloRepeat := false,
    helloTimer := none }

/-- R40, R25, R69, R107, R158, R181: power-on reset is in force. The levels of the input pins come from outside and
stay; the commands waiting stay. -/
def powerOnState (s : State) : State :=
  { State.reset with
    inReset := true
    lineA := { Line.powerOn with rxMark := s.lineA.rxMark }
    lineB := { Line.powerOn with rxMark := s.lineB.rxMark }
    link := s.link.inPowerOn
    freeCount := s.freeCount
    pending := s.pending }

/-- POWER_ON (R40): every driver is released at once, every pin takes its power-on level, every block its power-on
state. -/
def execPowerOn (s : State) : Host.Outcome State Fault Refusal := .next (powerOnState s)

/-- R181, R178: power-on reset ends: the straps are read, HELLO POWER_ON waits, repetition is active and its timer
runs. -/
def endPowerOn (rate1 rate0 : Bool) (s : State) : State :=
  { s with
    inReset := false
    link := { s.link with
      rate1, rate0, helloWaiting := true, helloRepeat := true, helloTimer := some Config.helloPeriod,
      helloCause := .powerOn } }

/-- POWER_ON_RESET_END (R181). Without a reset in force no reset ends. -/
def execPowerOnResetEnd (rate1 rate0 : Bool) (s : State) : Host.Outcome State Fault Refusal :=
  .next (if s.inReset then endPowerOn rate1 rate0 s else s)

end Sys2Proof.Machine
end

