-- ==== Sys2Proof/Machine/StationRequests.lean ====
section
/-! DEFINITION. The station requests and REQUEST_POLL (Chapter 1, R80). -/

namespace Sys2Proof.Machine

/-- Most station requests (R13 to R16, R19, R80): BAD_PARAMETER for a number above 47, NO_STATION for an undefined
entry, and otherwise what the request does with the entry. -/
def withStation (body : List Byte) (s : State) (f : Nat → Station → Applied) : Applied :=
  let n := u8At body 1
  if Config.stations ≤ n then refuse .badParameter s
  else
    match s.station n with
    | none => refuse .noStation s
    | some e => f n e

/-- R12: the entry a definition makes. -/
def newStation (p : DefineParams) : Station :=
  { address := p.address, home := p.home, alternate := p.alternate, current := p.home, pollPeriod := p.pollPeriod,
    retryLimit := p.retryLimit, offlineThreshold := p.offlineThreshold, state := .disabled, toggle := false,
    failures := 0, busyStreak := 0, pollDue := false, pollTimer := none, holdoffTimer := none, probeTimer := none,
    pendingDisable := false, sticky := 0, lastFailure := none, counters := .zero, notice := false, changeCount := 0,
    lastCause := none }

/-- R12, check 3: a line the new station would claim already carries its address (R4). -/
def addressTaken (p : DefineParams) (s : State) : Bool :=
  s.addressClaimed p.home p.address
    || match p.alternate with
       | none => false
       | some l => s.addressClaimed l p.address

/-- R12: the checks in order, then the definition. -/
def applyDefineStation (body : List Byte) (s : State) : Applied :=
  match defineParams body with
  | none => refuse .badParameter s
  | some p =>
    if (s.station p.station).isSome then refuse .stationExists s
    else if addressTaken p s then refuse .addressInUse s
    else
      let s := s.setStation p.station (some (newStation p))
      let s := if p.enable then enterProbing p.station s else enterDisabled p.station s
      answer .ok (s.onStation p.station (·.raiseNotice .define))

/-- DEFINE_STATION (R12). -/
def execDefineStation (s : State) : Host.Outcome State Fault Refusal :=
  .next (takeRequest 0x10 false applyDefineStation s)

/-- R13: the poll timer and due mark under a new poll period. -/
def Station.withPeriod (e : Station) (period : Nat) (pollInFlight : Bool) : Station :=
  if period = 0 then { e with pollPeriod := 0, pollTimer := none, pollDue := false }
  else
    match e.pollTimer with
    | some _ =>
      if period < e.pollPeriod then { e with pollPeriod := period, pollTimer := some period }
      else { e with pollPeriod := period }
    | none =>
      if (e.state = .online ∨ e.state = .suspect) ∧ !pollInFlight then
        { e with pollPeriod := period, pollTimer := some period }
      else { e with pollPeriod := period }

/-- R13: every parameter in its range of R2, station number included. -/
def modifyInRange (body : List Byte) : Bool :=
  u8At body 1 < Config.stations && pollPeriodInRange (u16At body 2) && retryLimitInRange (u8At body 4)
    && thresholdInRange (u8At body 5)

/-- R13. -/
def applyModifyStation (body : List Byte) (s : State) : Applied :=
  if !modifyInRange body then refuse .badParameter s
  else
    withStation body s fun n e =>
      answer .ok
        (s.setStation n
          (some
            { e.withPeriod (u16At body 2) (s.inFlightKind n == some .poll) with
              retryLimit := u8At body 4
              offlineThreshold := u8At body 5 }))

/-- MODIFY_STATION (R13). -/
def execModifyStation (s : State) : Host.Outcome State Fault Refusal :=
  .next (takeRequest 0x11 false applyModifyStation s)

/-- R14: the records complete REMOVED, the station leaves its list, and the entry becomes undefined. -/
def removeStation (n : Nat) (s : State) : State := (leaveProbeLists n (completeAllOf n .removed s)).setStation n none

/-- R14. -/
def applyRemoveStation (body : List Byte) (s : State) : Applied :=
  withStation body s fun n _ =>
    if (s.inFlightKind n).isSome then refuse .stationBusy s else answer .ok (removeStation n s)

/-- REMOVE_STATION (R14). -/
def execRemoveStation (s : State) : Host.Outcome State Fault Refusal :=
  .next (takeRequest 0x12 false applyRemoveStation s)

/-- R15: a DISABLED station enters PROBING on its home line. -/
def enableStation (n : Nat) (s : State) : State :=
  (enterProbing n (s.onStation n fun e => { e with current := e.home })).onStation n (·.raiseNotice .enable)

/-- R15. -/
def applyEnableStation (body : List Byte) (s : State) : Applied :=
  withStation body s fun n e =>
    if e.state = .disabled then answer .ok (enableStation n s)
    else answer .ok (s.setStation n (some { e with pendingDisable := false }))

/-- ENABLE_STATION (R15). -/
def execEnableStation (s : State) : Host.Outcome State Fault Refusal :=
  .next (takeRequest 0x13 false applyEnableStation s)

/-- R16: the disable is applied according to where the station stands. -/
def applyDisableStation (body : List Byte) (s : State) : Applied :=
  withStation body s fun n e =>
    if e.state = .disabled ∨ e.pendingDisable then answer .ok s
    else if (s.inFlightKind n).isSome then answer .ok (s.setStation n (some { e with pendingDisable := true }))
    else answer .ok (disableTakesEffect n s)

/-- DISABLE_STATION (R16). -/
def execDisableStation (s : State) : Host.Outcome State Fault Refusal :=
  .next (takeRequest 0x14 false applyDisableStation s)

/-- R9, R186: the six station counters in order. -/
def stationCounterBytes (c : StationCounters) : List Byte :=
  le16 c.completed ++ le16 c.attemptsFailed ++ le16 c.busyReplies ++ le16 c.dataReports ++ le16 c.lineSwitches
    ++ le16 c.probesSent

/-- R186: the code of the exchange in flight with a station, 0 if none. -/
def inFlightCode : Option ExchangeKind → Nat
  | none => 0
  | some k => k.code

/-- R18, R186: what READ_STATION returns of a defined entry. -/
def stationData (n : Nat) (e : Station) (s : State) : List Byte :=
  [b8 n,
      b8 (flagBit true 0 + flagBit e.toggle 1 + flagBit e.pollDue 2 + flagBit e.pendingDisable 3 + flagBit e.notice 4),
      b8 e.address, b8 (lineCode e.home), b8 (lineCode? e.alternate), b8 (lineCode e.current)]
    ++ le16 e.pollPeriod
    ++ [b8 e.retryLimit, b8 e.offlineThreshold, b8 e.state.code, b8 e.failures, b8 e.busyStreak]
    ++ le16 (timerCode e.pollTimer) ++ le16 (timerCode e.holdoffTimer) ++ le16 (timerCode e.probeTimer)
    ++ le16 e.sticky.toNat ++ [b8 (failureCode e.lastFailure)] ++ stationCounterBytes e.counters
    ++ [b8 e.changeCount, b8 (stationCauseCode e.lastCause), b8 (inFlightCode (s.inFlightKind n)),
      b8 (s.pool.recordsOf n).length]

/-- R1, R186: the blank entry. DESIGN CHOICE (assumption 26): the station number at offset 1 is the number asked for, as
in any other answer, and not one of the numbers that R186 gives as 0. -/
def blankStationData (n : Nat) : List Byte :=
  [b8 n, 0, 0, 0xFF, 0xFF, 0xFF] ++ le16 0 ++ [0, 0, 0xFF, 0, 0] ++ le16 0xFFFF ++ le16 0xFFFF ++ le16 0xFFFF
    ++ le16 0 ++ [0] ++ stationCounterBytes .zero ++ [0, 0, 0, 0]

/-- R18. -/
def applyReadStation (body : List Byte) (s : State) : Applied :=
  let n := u8At body 1
  if Config.stations ≤ n then refuse .badParameter s
  else
    match s.station n with
    | none => ⟨s, some ⟨.ok, blankStationData n⟩⟩
    | some e => ⟨s, some ⟨.ok, stationData n e s⟩⟩

/-- READ_STATION (R18). -/
def execReadStation (s : State) : Host.Outcome State Fault Refusal :=
  .next (takeRequest 0x15 false applyReadStation s)

/-- R19. -/
def applyClearStationErrors (body : List Byte) (s : State) : Applied :=
  withStation body s fun n e =>
    answer .ok
      (s.setStation n
        (some
          { e with
            sticky := 0
            lastFailure := none
            counters := if flagAt body 2 then .zero else e.counters }))

/-- CLEAR_STATION_ERRORS (R19). -/
def execClearStationErrors (s : State) : Host.Outcome State Fault Refusal :=
  .next (takeRequest 0x16 false applyClearStationErrors s)

/-- R80. -/
def applyRequestPoll (body : List Byte) (s : State) : Applied :=
  withStation body s fun n e =>
    match e.state with
    | .online => answer .ok (s.setStation n (some { e with pollDue := true }))
    | .suspect => answer .ok (s.setStation n (some { e with pollDue := true }))
    | .disabled => refuse .stationDisabled s
    | .probing => refuse .stationOffline s
    | .offline => refuse .stationOffline s

/-- REQUEST_POLL (R80). -/
def execRequestPoll (s : State) : Host.Outcome State Fault Refusal :=
  .next (takeRequest 0x17 false applyRequestPoll s)

end Sys2Proof.Machine
end

