-- ==== Sys2Proof/Machine/Timers.lean ====
section
/-! DEFINITION. The station timers' expiries and the draining of notices (R63, R79, R82, R155, R156). -/

namespace Sys2Proof.Machine

/-- R79: the timer stops and the due mark is set. A timer that does not run does not expire. -/
def Station.expirePoll (e : Station) : Station :=
  match e.pollTimer with
  | none => e
  | some _ => { e with pollTimer := none, pollDue := true }

/-- POLL_TIMER_EXPIRY (R79). -/
def execPollTimerExpiry (station : Nat) (s : State) : Host.Outcome State Fault Refusal :=
  .next (s.onStation station Station.expirePoll)

/-- HOLDOFF_TIMER_EXPIRY (R63): at expiry the timer stops. -/
def execHoldoffTimerExpiry (station : Nat) (s : State) : Host.Outcome State Fault Refusal :=
  .next (s.onStation station fun e => { e with holdoffTimer := none })

/-- PROBE_TIMER_EXPIRY (R82): the remaining time is 0 and stays 0 until the station is probed. -/
def execProbeTimerExpiry (station : Nat) (s : State) : Host.Outcome State Fault Refusal :=
  .next (s.onStation station fun e => { e with probeTimer := e.probeTimer.map fun _ => 0 })

/-- R156: a drained line notice becomes a LINE_STATE report; the flag is cleared, the cause kept. -/
def drainLine (l : LineId) (s : State) : State :=
  (enqueue (.lineState l (s.line l).mode (s.line l).stuck (s.line l).noticeCause) s).onLine l fun ln =>
    { ln with notice := false }

/-- R156: a drained station notice becomes a STATION_STATE report; the flag is cleared, the change count becomes 0 and
the last cause is kept (R11). -/
def drainStation (n : Nat) (s : State) : State :=
  match s.station n with
  | none => s
  | some e =>
    (enqueue (.stationState n e.state e.current e.changeCount e.lastCause) s).setStation n
      (some { e with notice := false, changeCount := 0 })

/-- R155: the station's notice flag is set. -/
def noticeSet (s : State) (n : Nat) : Bool :=
  match s.station n with
  | none => false
  | some e => e.notice

/-- R155: the first station with its notice flag set, in ascending number. -/
def firstNotice (s : State) : Option Nat := (List.range Config.stations).find? (noticeSet s)

/-- R155: a notice flag is set and a free unreserved slot exists. -/
def noticeWaits (s : State) : Bool :=
  s.queue.hasSpace && (s.lineA.notice || s.lineB.notice || (firstNotice s).isSome)

/-- R155: one flag is drained: line A's, else line B's, else the first station's. -/
def drainOne (s : State) : State :=
  if s.lineA.notice then drainLine .a s
  else if s.lineB.notice then drainLine .b s
  else
    match firstNotice s with
    | none => s
    | some n => drainStation n s

/-- NOTICE_DRAIN (R155): a set flag and a free unreserved slot. -/
def execNoticeDrain (s : State) : Host.Outcome State Fault Refusal :=
  .next (if s.queue.hasSpace then drainOne s else s)

end Sys2Proof.Machine
end

