-- ==== Sys2Proof/Machine/Dispatch.lean ====
section
/-! DEFINITION. The one dispatch from a row of the table to its meaning. -/

namespace Sys2Proof.Machine

def exec (i : Instr) (s : State) : Host.Outcome State Fault Refusal :=
  match i with
  | .powerOn => Sys2Proof.Machine.execPowerOn s
  | .powerOnResetEnd r1 r0 => Sys2Proof.Machine.execPowerOnResetEnd r1 r0 s
  | .byteDiscarded b fe => Sys2Proof.Machine.execByteDiscarded b fe s
  | .hostFrameDiscarded b fe => Sys2Proof.Machine.execHostFrameDiscarded b fe s
  | .hostFrameGapTimeout => Sys2Proof.Machine.execHostFrameGapTimeout s
  | .requestArrival b => Sys2Proof.Machine.execRequestArrival b s
  | .ack b => Sys2Proof.Machine.execAck b s
  | .identify => Sys2Proof.Machine.execIdentify s
  | .openSession => Sys2Proof.Machine.execOpenSession s
  | .closeSession => Sys2Proof.Machine.execCloseSession s
  | .restart => Sys2Proof.Machine.execRestart s
  | .restartTaken => Sys2Proof.Machine.execRestartTaken s
  | .readLinkStatus => Sys2Proof.Machine.execReadLinkStatus s
  | .readQueueStatus => Sys2Proof.Machine.execReadQueueStatus s
  | .defineStation => Sys2Proof.Machine.execDefineStation s
  | .modifyStation => Sys2Proof.Machine.execModifyStation s
  | .removeStation => Sys2Proof.Machine.execRemoveStation s
  | .enableStation => Sys2Proof.Machine.execEnableStation s
  | .disableStation => Sys2Proof.Machine.execDisableStation s
  | .readStation => Sys2Proof.Machine.execReadStation s
  | .clearStationErrors => Sys2Proof.Machine.execClearStationErrors s
  | .requestPoll => Sys2Proof.Machine.execRequestPoll s
  | .submitCommand => Sys2Proof.Machine.execSubmitCommand s
  | .submitBroadcast => Sys2Proof.Machine.execSubmitBroadcast s
  | .cancelCommand => Sys2Proof.Machine.execCancelCommand s
  | .setLineMode => Sys2Proof.Machine.execSetLineMode s
  | .configureLine => Sys2Proof.Machine.execConfigureLine s
  | .resetLine => Sys2Proof.Machine.execResetLine s
  | .startScan => Sys2Proof.Machine.execStartScan s
  | .cancelScan => Sys2Proof.Machine.execCancelScan s
  | .startLineTest => Sys2Proof.Machine.execStartLineTest s
  | .readLineStatus => Sys2Proof.Machine.execReadLineStatus s
  | .clearLineCounters => Sys2Proof.Machine.execClearLineCounters s
  | .setOutputs => Sys2Proof.Machine.execSetOutputs s
  | .clearOutputs => Sys2Proof.Machine.execClearOutputs s
  | .assignOutput => Sys2Proof.Machine.execAssignOutput s
  | .ctsFall => Sys2Proof.Machine.execCtsFall s
  | .ctsRise => Sys2Proof.Machine.execCtsRise s
  | .hostTransmitStart => Sys2Proof.Machine.execHostTransmitStart s
  | .hostFrameEnd => Sys2Proof.Machine.execHostFrameEnd s
  | .ackTimerExpiry => Sys2Proof.Machine.execAckTimerExpiry s
  | .helloTimerExpiry => Sys2Proof.Machine.execHelloTimerExpiry s
  | .schedulerChoice l => Sys2Proof.Machine.execSchedulerChoice l s
  | .frameSent l => Sys2Proof.Machine.execFrameSent l s
  | .driverRelease l => Sys2Proof.Machine.execDriverRelease l s
  | .guardEnd l => Sys2Proof.Machine.execGuardEnd l s
  | .replyStartTimeout l => Sys2Proof.Machine.execReplyStartTimeout l s
  | .addressCharacterReceived l b fe => Sys2Proof.Machine.execAddressCharacterReceived l b fe s
  | .lengthAbandon l b fe => Sys2Proof.Machine.execLengthAbandon l b fe s
  | .strayCharacter l b mark fe => Sys2Proof.Machine.execStrayCharacter l b mark fe s
  | .intercharacterTimeout l => Sys2Proof.Machine.execIntercharacterTimeout l s
  | .frameReceived l b fe => Sys2Proof.Machine.execFrameReceived l b fe s
  | .gapExpiry l => Sys2Proof.Machine.execGapExpiry l s
  | .pollTimerExpiry n => Sys2Proof.Machine.execPollTimerExpiry n s
  | .holdoffTimerExpiry n => Sys2Proof.Machine.execHoldoffTimerExpiry n s
  | .probeTimerExpiry n => Sys2Proof.Machine.execProbeTimerExpiry n s
  | .stuckRaised l => Sys2Proof.Machine.execStuckRaised l s
  | .stuckCleared l => Sys2Proof.Machine.execStuckCleared l s
  | .testAwaitTimeout l => Sys2Proof.Machine.execTestAwaitTimeout l s
  | .testGapExpiry l => Sys2Proof.Machine.execTestGapExpiry l s
  | .noticeDrain => Sys2Proof.Machine.execNoticeDrain s
  | .frameCharacterReceived l b fe => Sys2Proof.Machine.execFrameCharacterReceived l b fe s
  | .startBitAccepted l => Sys2Proof.Machine.execStartBitAccepted l s
  | .glitch l => Sys2Proof.Machine.execGlitch l s
  | .receiveInputLevelChange l mark => Sys2Proof.Machine.execReceiveInputLevelChange l mark s
  | .characterSent l => Sys2Proof.Machine.execCharacterSent l s
  | .hostByteReceived b => Sys2Proof.Machine.execHostByteReceived b s
  | .hostStartBitAccepted => Sys2Proof.Machine.execHostStartBitAccepted s
  | .unknownRequestCode => Sys2Proof.Machine.execUnknownRequestCode s

end Sys2Proof.Machine
end

