-- ==== Sys2Proof/Machine/Idle.lean ====
section
/-! DEFINITION. What the part does of its own accord while no command waits (assumption 1): the steps that the manual
has it take at once, and, when none is left to take, the passing of one millisecond. -/

namespace Sys2Proof.Machine

/-- The row by which the host link takes a request of a code (R168, R184). -/
def rowOfCode : Option Nat → Instr
  | some 0x01 => .identify
  | some 0x02 => .openSession
  | some 0x03 => .closeSession
  | some 0x04 => .restart
  | some 0x05 => .readLinkStatus
  | some 0x06 => .readQueueStatus
  | some 0x10 => .defineStation
  | some 0x11 => .modifyStation
  | some 0x12 => .removeStation
  | some 0x13 => .enableStation
  | some 0x14 => .disableStation
  | some 0x15 => .readStation
  | some 0x16 => .clearStationErrors
  | some 0x17 => .requestPoll
  | some 0x30 => .submitCommand
  | some 0x31 => .submitBroadcast
  | some 0x32 => .cancelCommand
  | some 0x40 => .setLineMode
  | some 0x41 => .configureLine
  | some 0x42 => .resetLine
  | some 0x43 => .startScan
  | some 0x44 => .cancelScan
  | some 0x45 => .startLineTest
  | some 0x46 => .readLineStatus
  | some 0x47 => .clearLineCounters
  | some 0x50 => .setOutputs
  | some 0x51 => .clearOutputs
  | some 0x52 => .assignOutput
  | _ => .unknownRequestCode

/-- The row by which the head of the intake is taken, when it may be (R168). -/
def requestRow (s : State) : Option Instr :=
  match s.link.intake with
  | [] => none
  | r :: _ => if s.link.canTake then some (rowOfCode (requestCode r.body)) else none

/-- A station timer of entry n stands at 0, so that its expiry is taken before the next millisecond passes (R63, R79).
A probe timer at 0 has expired already (R82). -/
def expiredTimer (s : State) (n : Nat) : Option Instr :=
  match s.station n with
  | none => none
  | some e =>
    if e.pollTimer = some 0 then some (.pollTimerExpiry n)
    else if e.holdoffTimer = some 0 then some (.holdoffTimerExpiry n)
    else none

/-- The expiry of a millisecond timer that stands at 0 (R63, R79, R175, R178). -/
def expiryDue (s : State) : Option Instr :=
  if s.link.session.ackTimer = some 0 ∧ s.link.session.state = .opened then some .ackTimerExpiry
  else if s.link.helloTimer = some 0 then some .helloTimerExpiry
  else (List.range Config.stations).findSome? (expiredTimer s)

/-- The next step the part takes of its own accord, if any: the taking of a request (R168), the draining of a notice
(R155), a choice that finds work (R71), the start of a host frame (R177), the expiry of a millisecond timer. -/
def ownStep (s : State) : Option Instr :=
  match requestRow s with
  | some i => some i
  | none =>
    if noticeWaits s then some .noticeDrain
    else if choiceWorks s .a then some (.schedulerChoice .a)
    else if choiceWorks s .b then some (.schedulerChoice .b)
    else if hostFrameWaits s then some .hostTransmitStart
    else expiryDue s

/-- One millisecond off a running timer; at 0 it stays until its expiry is taken. -/
def tickTimer (t : Option Nat) : Option Nat := t.map (· - 1)

/-- The station timers over one millisecond (R63, R78, R82). -/
def Station.tick (e : Station) : Station :=
  { e with
    pollTimer := tickTimer e.pollTimer
    holdoffTimer := tickTimer e.holdoffTimer
    probeTimer := tickTimer e.probeTimer }

/-- One millisecond passes: every running millisecond timer counts (About This Manual, Millisecond timers). -/
def tick (s : State) : State :=
  { s with
    stations := s.stations.map (·.map Station.tick)
    link := { s.link with
      helloTimer := tickTimer s.link.helloTimer
      session := { s.link.session with ackTimer := tickTimer s.link.session.ackTimer } } }

/-- What the part does while no command waits. -/
def idle (s : State) : Host.Outcome State Fault Refusal :=
  match ownStep s with
  | some i => exec i s
  | none => .next (tick s)

end Sys2Proof.Machine
end

