-- ==== Sys2Proof/Safety.lean ====
section
/-! DEFINITION. What counts as a sound state of the part, in the terms the statements use: the numbering of the report
queue, the reservations and their holders, the session and its window, the line columns, the probe lists, and the
ranges of the counters; and how the statements speak of a request that is taken and of its answer. -/

namespace Sys2Proof.Machine

/-! ### The report queue (R146, R148, R150) -/

/-- R148: the numbers of the entries are consecutive in queue order, and the counter holds the number that follows the
last of them. -/
def ReportQueue.Numbered (q : ReportQueue) : Prop :=
  q.entries.map (·.seq)
    = (List.range q.entries.length).map fun i => q.seqCounter - BitVec.ofNat 16 (q.entries.length - i)

/-- R150: the reservations that one line's work holds: its scan, its line test, and its POLL or PROBE. -/
def Line.holders (ln : Line) : Nat :=
  (if ln.scan.isSome then 1 else 0) + (if ln.test.isSome then 1 else 0) + (if ln.exchangeHolds then 1 else 0)

/-- R150: everything that holds a reservation. -/
def State.holders (s : State) : Nat := s.pool.records.length + s.lineA.holders + s.lineB.holders

/-- R41, R42, R52: how the fields of an exchange record go together. A POLL or PROBE names a station, carries no record
and holds its reservation until its outcome is decided; no other kind holds one; and a decided outcome stands in the
final GAP, or, for a BROADCAST, from GUARD on. -/
def Exchange.Sound (x : Exchange) : Prop :=
  ((x.kind = .poll ∨ x.kind = .probe) → x.station.isSome ∧ x.record = none)
    ∧ (x.holdsReservation = true ↔ (x.kind = .poll ∨ x.kind = .probe) ∧ x.outcome = none)
    ∧ (x.outcome.isSome → x.phase = .gap ∨ (x.kind = .broadcast ∧ x.phase = .guard))

/-- R93, R94, R146, R150: live records have distinct tags, at most 64 live, and at most 4 of one station; the
reservations equal their holders, and entries plus reservations do not exceed 128. -/
def State.Reserved (s : State) : Prop :=
  s.queue.reservations = s.holders ∧ s.queue.load ≤ Config.reportSlots ∧ (s.pool.records.map (·.tag)).Nodup
    ∧ s.pool.records.length ≤ 64 ∧ (∀ n, (s.pool.records.filter (·.station == some n)).length ≤ 4)
    ∧ ∀ l x, (s.line l).exchange = some x → x.Sound

/-! ### The session (R149, R171 to R176) -/

/-- R149, R173: the sent entries form an unbroken run from the head and are at most the window; a CLOSED session has
none; in STALLED, and while the acknowledgement timer runs, there is one; and a resend run, which only an OPEN session
has, stands at a sent entry. -/
def State.SessionSound (s : State) : Prop :=
  (s.queue.entries.dropWhile (·.sent)).all (!·.sent) = true
    ∧ s.queue.sentCount ≤ s.link.session.window
    ∧ (s.link.session.state = .closed → s.queue.sentCount = 0)
    ∧ (s.link.session.state = .stalled → 0 < s.queue.sentCount)
    ∧ (s.link.session.ackTimer.isSome → s.link.session.state = .opened ∧ 0 < s.queue.sentCount)
    ∧ ∀ p, s.link.session.run = some p →
        s.link.session.state = .opened ∧ ∃ e ∈ s.queue.entries, e.sent = true ∧ e.seq = p

/-! ### The line columns (R24, R30, R34, R41, R125, R133, R139) -/

/-- The phases in which the driver is asserted (R24). -/
def Phase.drives : Phase → Bool
  | .transmit => true
  | .guard => true
  | _ => false

/-- R24, R25, R30, R41, R125, R126, R133, R139: an exchange and a scan run only in ACTIVE with STUCK clear; a line test runs
exactly in TEST; STUCK stands only in ACTIVE and MONITOR; an assembler holds a frame only outside OFF; the driver is
asserted in TRANSMIT and GUARD, and otherwise only while a character completes at an ending, and not while a line test's
completes after RESTART; and no mode change that waits is one to TEST, which SET_LINE_MODE does not take. -/
def Line.Sound (ln : Line) : Prop :=
  (ln.exchange.isSome → ln.mode = .active ∧ ln.stuck = false)
    ∧ (ln.scan.isSome → ln.mode = .active ∧ ln.stuck = false)
    ∧ (ln.test.isSome ↔ ln.mode = .test)
    ∧ (ln.stuck = true → (ln.mode = .active ∨ ln.mode = .monitor) ∧ ln.driver = false)
    ∧ (ln.assembler.isSome → ln.mode ≠ .off)
    ∧ (ln.driver = true → ln.ending.isSome ∨ ∃ x, ln.exchange = some x ∧ x.phase.drives)
    ∧ (∀ x, ln.exchange = some x → x.phase.drives → ln.driver = true)
    ∧ (ln.afterRestart.isSome → ln.exchange = none)
    ∧ (∀ c, ln.afterRestart = some (c, true) → ln.driver = false)
    ∧ ln.ending ≠ some (.modeChange .test)

/-! ### The stations (R4, R5, R81) -/

/-- R4: on each line the addresses of the defined entries whose home or alternate line it is are distinct. -/
def State.AddressesDistinct (s : State) : Prop :=
  ∀ (l : LineId) (n m : Nat) (e f : Station), s.station n = some e → s.station m = some f →
    (e.home = l ∨ e.alternate = some l) → (f.home = l ∨ f.alternate = some l) → e.address = f.address → n = m

/-- R5, R81: each probe list holds, once each, exactly the stations in PROBING or OFFLINE whose current line is that
line. -/
def State.ProbeListsHold (s : State) : Prop :=
  ∀ l, (s.line l).probeList.Nodup
    ∧ ∀ n, n ∈ (s.line l).probeList
        ↔ ∃ e, s.station n = some e ∧ (e.state = .probing ∨ e.state = .offline) ∧ e.current = l

/-! ### The counters (R9, R39, R166) -/

/-- About This Manual, Counters: the greatest value of a counter the host can read. -/
def counterTop : Nat := 65535

/-- R39. -/
def LineCounters.InRange (c : LineCounters) : Prop :=
  c.framesSent ≤ counterTop ∧ c.goodFrames ≤ counterTop ∧ c.checkErrors ≤ counterTop ∧ c.framingErrors ≤ counterTop
    ∧ c.glitches ≤ counterTop ∧ c.abandonedFrames ≤ counterTop ∧ c.strayCharacters ≤ counterTop
    ∧ c.stuckEvents ≤ counterTop ∧ c.capturesLost ≤ counterTop ∧ c.attemptsFailed ≤ counterTop

/-- R166. -/
def LinkCounters.InRange (c : LinkCounters) : Prop :=
  c.bytesDiscarded ≤ counterTop ∧ c.badFrames ≤ counterTop ∧ c.frameTimeouts ≤ counterTop
    ∧ c.duplicateRequests ≤ counterTop ∧ c.backoffs ≤ counterTop ∧ c.responsesDropped ≤ counterTop
    ∧ c.strayAcks ≤ counterTop ∧ c.retransmissionRuns ≤ counterTop ∧ c.stalls ≤ counterTop

/-- R9, R10, R63, R109: the counters and counts of a station entry. -/
def Station.InRange (e : Station) : Prop :=
  e.counters.completed ≤ counterTop ∧ e.counters.attemptsFailed ≤ counterTop ∧ e.counters.busyReplies ≤ counterTop
    ∧ e.counters.dataReports ≤ counterTop ∧ e.counters.lineSwitches ≤ counterTop ∧ e.counters.probesSent ≤ counterTop
    ∧ e.failures ≤ 15 ∧ e.busyStreak ≤ 15 ∧ e.changeCount ≤ 255

/-- Every counter of the part is in its range. -/
def State.CountersInRange (s : State) : Prop :=
  s.lineA.counters.InRange ∧ s.lineB.counters.InRange ∧ s.link.counters.InRange
    ∧ ∀ n e, s.station n = some e → e.InRange

/-! ### A request that is taken, and its answer (R168, R169) -/

/-- R168: the request r stands at the head of the intake, `rest` behind it, and may be taken: the response queue has a
free place, no restart waits, and no request waits for a driver release (assumption 8). -/
abbrev AtHead (s : State) (r : Request) (rest : List Request) : Prop :=
  s.link.intake = r :: rest ∧ s.link.responses.length < 8 ∧ s.link.restartWaiting = false ∧ s.link.held = none

/-- R168: a request at the head that its owner is handed: the session is not CLOSED. -/
abbrev Handed (s : State) (r : Request) (rest : List Request) : Prop :=
  AtHead s r rest ∧ s.link.session.state ≠ .closed

/-- R168: the head has left the intake, and `rest` is what remains. -/
def headTaken (rest : List Request) (s : State) : State := { s with link := { s.link with intake := rest } }

/-- R168, R169, R186: the request r has been answered with a status and data: the response joins the tail of the response
queue, and the cache takes an entry, in place of the one added longest ago when it holds 4. -/
def answered (r : Request) (status : Status) (data : List Byte) (s : State) : State :=
  { s with
    link := { s.link with
      responses := s.link.responses ++ [⟨r.number, status.code :: data, false⟩]
      cache :=
        (if 4 ≤ s.link.cache.length then s.link.cache.drop 1 else s.link.cache)
          ++ [⟨r.number, r.crc, status.code :: data⟩] } }

/-- The request r, at the head, is answered with a status alone, and nothing else changes (R186). -/
def refusedWith (r : Request) (rest : List Request) (status : Status) (s : State) : State :=
  answered r status [] (headTaken rest s)

/-! ### Effects the statements name (R81, R99, R152, R182) -/

/-- R152, R148: a reservation has become a report at the tail of the queue. -/
def converted (report : Report) (s : State) : State :=
  { s with
    queue :=
      { entries := s.queue.entries ++ [⟨s.queue.seqCounter, report, false⟩]
        reservations := s.queue.reservations - 1
        seqCounter := s.queue.seqCounter + 1 } }

/-- R99, R101: the record r has completed with an outcome and reply data: it has left the pool, and its reservation has
become its COMMAND_DONE report. -/
def recordDone (r : CommandRecord) (outcome : CommandOutcome) (reply : List Byte) (s : State) : State :=
  converted (.commandDone r.tag r.station outcome r.transmitted r.attempts r.lastFailure reply)
    { s with pool := { s.pool with records := s.pool.records.filter fun q => q.tag != r.tag } }

/-- R102: the records rs have completed together, in their order and without reply data. -/
def recordsDone (rs : List CommandRecord) (outcome : CommandOutcome) (s : State) : State :=
  { s with
    pool := { s.pool with records := s.pool.records.filter fun q => !(rs.map (·.tag)).contains q.tag }
    queue :=
      { entries := s.queue.entries ++ rs.mapIdx fun i r =>
          ⟨s.queue.seqCounter + BitVec.ofNat 16 i,
            .commandDone r.tag r.station outcome r.transmitted r.attempts r.lastFailure [], false⟩
        reservations := s.queue.reservations - rs.length
        seqCounter := s.queue.seqCounter + BitVec.ofNat 16 rs.length } }

/-- R81: station n stands at the tail of the probe list of a line, and in no other; with no line, in none. -/
def probeListed (l : Option LineId) (n : Nat) (s : State) : State :=
  { s with
    lineA := { s.lineA with
      probeList := s.lineA.probeList.filter (· != n) ++ if l = some .a then [n] else [] }
    lineB := { s.lineB with
      probeList := s.lineB.probeList.filter (· != n) ++ if l = some .b then [n] else [] } }

/-- R10: the entry with its notice raised: the flag set, the change count one higher up to 255, the cause written. -/
def noticed (e : Station) (cause : StationCause) : Station :=
  { e with notice := true, changeCount := min (e.changeCount + 1) 255, lastCause := some cause }

/-- R127: the line with its notice raised. -/
def lineNoticed (ln : Line) (cause : LineCause) : Line := { ln with notice := true, noticeCause := some cause }

/-- What a request that names a station comes to: BAD_PARAMETER above 47, NO_STATION for an undefined entry, and
otherwise what `f` says of the entry. -/
def stationRequest (r : Request) (rest : List Request) (n : Byte) (s : State) (f : Station → State) : State :=
  if 47 < n.toNat then refusedWith r rest .badParameter s
  else
    match s.station n.toNat with
    | none => refusedWith r rest .noStation s
    | some e => f e

/-- What a request that names a line comes to: BAD_PARAMETER for a byte above 1, and otherwise what `f` says of the
line (R182). -/
def lineRequest (r : Request) (rest : List Request) (line : Byte) (s : State) (f : LineId → State) : State :=
  if line = 0 then f .a else if line = 1 then f .b else refusedWith r rest .badParameter s

/-- The counters with abandoned frames raised, when a partial frame is held (R34, R39). -/
def abandonedIf (held : Bool) (c : LineCounters) : LineCounters :=
  { c with abandonedFrames := if held then min (c.abandonedFrames + 1) 65535 else c.abandonedFrames }

/-- R136, R137: the line's scan, if one runs, has ended with a status. -/
def scanEnded (l : LineId) (status : ScanStatus) (s : State) : State :=
  match (s.line l).scan with
  | none => s
  | some sc => converted (.scanDone l status sc.responders) (s.onLine l fun ln => { ln with scan := none })

/-- R141: the line test t has ended with a status: its TEST_DONE report, mode OFF, the notice. -/
def testEnded (l : LineId) (t : LineTest) (status : TestStatus) (s : State) : State :=
  converted (.testDone l status t.framesSent t.framesMatched t.firstMismatch)
    (s.onLine l fun ln =>
      lineNoticed
        { ln with
          test := none, mode := .off, awaitsMark := false, assembler := none
          counters := abandonedIf ln.assembler.isSome ln.counters }
        .testEnded)

/-- R126, steps 3 to 5: the line has taken a mode. A partial frame is abandoned and the notice set, cause MODE_SET. OFF
and MONITOR release the driver, but for one that a character left by RESTART still holds (assumption 9); OFF clears
STUCK; a receiver that becomes enabled waits for mark where its input is at space (R26). -/
def modeTaken (l : LineId) (m : LineMode) (s : State) : State :=
  s.onLine l fun ln =>
    lineNoticed
      { ln with
        mode := m
        driver := if m = .active then ln.driver else ln.driver && ln.afterRestart.isSome
        stuck := if m = .off then false else ln.stuck
        awaitsMark := if m = .off then false else !ln.rxMark
        assembler := none
        counters := abandonedIf ln.assembler.isSome ln.counters }
      .modeSet

/-- R16, R17: a disable of station n has taken effect: it is DISABLED and in no probe list, its live records have
completed DISABLED, oldest first, and its notice is set. -/
def disableDone (n : Nat) (s : State) : State :=
  match s.station n with
  | none => s
  | some e =>
    probeListed none n
      ((recordsDone (s.pool.records.filter (·.station == some n)) .disabled s).setStation n
        (some
          (noticed
            { e with
              state := .disabled, pollTimer := none, holdoffTimer := none, probeTimer := none, pollDue := false
              pendingDisable := false, failures := 0, busyStreak := 0 }
            .disable)))

/-- R93: the tags of the live records are distinct. -/
abbrev TagsDistinct (s : State) : Prop := (s.pool.records.map (·.tag)).Nodup

end Sys2Proof.Machine
end

