-- ==== Sys2Proof/Certificates/Slice0/Obligations.lean ====
section
/-! DEFINITION. The statements: what the rules of the manual say the commands and the part do. Each conclusion gives the
whole next state, so that it says the frame too: whatever it does not name is as it was. -/

open Sys2Proof Sys2Proof.Machine

/-! ### The step -/

/-- The block's step: with a command at the front of the queue, a step is that command's meaning on the state with the
rest of the queue. -/
def Obligations.StepTakesTheFrontCommand : Prop :=
  ∀ (s : State) (c : Instr) (rest : List Instr), s.pending = c :: rest → step s = exec c { s with pending := rest }

/-- The model's choice (assumption 1): with no command waiting and nothing that the part does at once, a step is one
millisecond, which every running millisecond timer counts, stopping at 0, and nothing else changes. -/
def Obligations.IdlePartCountsOneMillisecond : Prop :=
  ∀ s : State, s.pending = [] → ownStep s = none →
    ∃ t, step s = .next t
      ∧ (∀ n, t.station n = (s.station n).map fun e =>
          { e with
            pollTimer := e.pollTimer.map (· - 1)
            holdoffTimer := e.holdoffTimer.map (· - 1)
            probeTimer := e.probeTimer.map (· - 1) })
      ∧ t.link = { s.link with
          helloTimer := s.link.helloTimer.map (· - 1)
          session := { s.link.session with ackTimer := s.link.session.ackTimer.map (· - 1) } }
      ∧ t.lineA = s.lineA ∧ t.lineB = s.lineB ∧ t.pool = s.pool ∧ t.queue = s.queue ∧ t.outputs = s.outputs
      ∧ t.inReset = s.inReset ∧ t.freeCount = s.freeCount ∧ t.pending = []

/-- No command stops the part, and no command touches the commands waiting behind it. (The manual names no event that
stops the part; that a command whose event cannot occur in the state still answers a next state is the model's choice,
assumption 3, and so is that POWER_ON keeps the commands waiting, assumption 2.) -/
def Obligations.EveryCommandCompletesAndKeepsTheQueue : Prop :=
  ∀ (c : Instr) (s : State), ∃ t, exec c s = .next t ∧ t.pending = s.pending

/-! ### Power-on -/

/-- R40, R25, R39, R41, R70, R107, R125, R128, R143, R158, R171, R181: POWER_ON leaves every block in its power-on
state, whatever it finds: no station defined, both lines OFF with their drivers released, the power-on configuration
and nothing running, the pool and the report queue empty with both counts 0, the session CLOSED with window 4 and
timeout 500, the link empty, and every output LATCH with latch 0. The levels of the input pins, which come from
outside, and the strap reading are kept (the model's choice, assumption 2). Every output pin has its power-on level:
HTXD, ATXD and BTXD at mark, HOLD and OUT0 to OUT3 low. R181, R178: when power-on reset ends the
straps are read, and HELLO POWER_ON is set waiting with its repetition active and its timer at 1000 ms; nothing else
changes. The state after reset is the one that POWER_ON and the end of power-on reset leave (with both straps low: the
model's choice, assumption 2). -/
def Obligations.PowerOnResetsThePart : Prop :=
  (∀ s : State, ∃ t, exec .powerOn s = .next t
      ∧ t.inReset = true
      ∧ (∀ n, t.station n = none)
      ∧ (∀ l, t.line l =
          { mode := .off
            config :=
              { rate := .r9600, stopBits := 1, replyStart := 20, intercharacter := 3, lineGap := 4, probeInterval := 2000,
                busyHoldoff := 50, busyLimit := 8, commandStreak := 4, scanStreak := 4 }
            counters := ⟨0, 0, 0, 0, 0, 0, 0, 0, 0, 0⟩
            stuck := false, driver := false, rxMark := (s.line l).rxMark, awaitsMark := false, assembler := none
            ending := none, notice := false, noticeCause := none, scan := none, test := none, exchange := none
            walk := none, commandCount := 0, scanCount := 0, probeList := [] })
      ∧ t.pool = { records := [], acceptCount := 0 }
      ∧ t.queue = { entries := [], reservations := 0, seqCounter := 0 }
      ∧ t.link =
          { rate1 := s.link.rate1, rate0 := s.link.rate0, ctsLow := s.link.ctsLow, awaitsMark := false, assembler := none
            intake := [], cache := [], responses := []
            session :=
              { state := .closed, window := 4, timeout := 500, retransmissions := 0, ackTimer := none, run := none }
            counters := ⟨0, 0, 0, 0, 0, 0, 0, 0, 0⟩
            sending := none, helloWaiting := false, helloRepeat := false, helloTimer := none, helloCause := .powerOn
            restartWaiting := false, held := none }
      ∧ (∀ i (h : i < 4), t.outputs[i] = { latch := false, function := .latch })
      ∧ t.pending = s.pending
      ∧ (∀ bitTime, t.link.txPin bitTime = true ∧ ∀ l, (t.line l).txPin bitTime = true)
      ∧ t.holdPin = false ∧ ∀ i (h : i < 4), t.pin t.outputs[i] = false)
  ∧ ((∀ (s : State) (rate1 rate0 : Bool), s.inReset = true →
      exec (.powerOnResetEnd rate1 rate0) s =
        .next { s with
          inReset := false
          link := { s.link with
            rate1, rate0, helloWaiting := true, helloRepeat := true, helloTimer := some 1000, helloCause := .powerOn } })
    ∧ ∃ t, exec .powerOn State.reset = .next t ∧ exec (.powerOnResetEnd false false) t = .next State.reset)

/-! ### Bytes and frames from the host -/

/-- R162, R164: in SEEKING the byte 0xA5 without a framing error starts a frame, and any other byte, or 0xA5 with a
framing error, is discarded and raises bytes discarded. In COLLECTING a LENGTH of 2 to 66, and every byte short of the
frame's end, is added. Each byte of a frame starts the gap timer with 10 character times, and the next accepted start bit
stops it. R162, R40: after a framing error no byte is taken until a start bit is accepted, which the receiver does only
after its input has returned to mark (the model's choice, assumption 27), and while power-on reset is in force the
receiver ignores its input. -/
def Obligations.HostBytesAreCollected : Prop :=
  (∀ s : State, s.inReset = false → s.link.awaitsMark = false → s.link.assembler = none →
    exec (.hostByteReceived 0xA5#8) s = .next { s with link := { s.link with assembler := some ⟨[], some 10⟩ } })
  ∧ (∀ (s : State) (byte : Byte) (fe : Bool), s.inReset = false → s.link.awaitsMark = false → s.link.assembler = none →
      byte ≠ 0xA5#8 ∨ fe = true →
      exec (.byteDiscarded byte fe) s =
        .next { s with link := { s.link with
          awaitsMark := fe
          counters := { s.link.counters with bytesDiscarded := min (s.link.counters.bytesDiscarded + 1) 65535 } } })
  ∧ (∀ (s : State) (p : HostPartial) (byte : Byte), s.inReset = false → s.link.awaitsMark = false →
      s.link.assembler = some p →
      (p.bytes = [] ∧ 2 ≤ byte.toNat ∧ byte.toNat ≤ 66)
        ∨ (∃ length rest, p.bytes = length :: rest ∧ rest.length + 1 < length.toNat + 2) →
      exec (.hostByteReceived byte) s =
        .next { s with link := { s.link with assembler := some ⟨p.bytes ++ [byte], some 10⟩ } })
  ∧ (∀ s : State, s.inReset = false →
      exec .hostStartBitAccepted s =
        .next { s with link := { s.link with
          awaitsMark := false, assembler := s.link.assembler.map fun p => { p with timer := none } } })
  ∧ (∀ (s : State) (byte : Byte) (fe : Bool), s.inReset = true ∨ s.link.awaitsMark = true →
      ∀ c ∈ [Instr.hostByteReceived byte, .byteDiscarded byte fe, .hostFrameDiscarded byte fe, .requestArrival byte,
        .ack byte], exec c s = .next s)
  ∧ ∀ s : State, s.inReset = true → exec .hostStartBitAccepted s = .next s

/-- R164, R165: a LENGTH below 2 or above 66, a framing error, and a frame whose last byte completes it with a CRC
that differs, with a KIND other than REQUEST and ACK, or as an ACK whose BODY is not 2 bytes, discards the frame and
raises bad frames; the gap timer's expiry discards it and raises frame timeouts. The assembler then seeks. After a framing
error the receiver waits for mark (R162). -/
def Obligations.HostFramesAreDiscarded : Prop :=
  (∀ (s : State) (p : HostPartial) (byte : Byte) (fe : Bool), s.inReset = false → s.link.awaitsMark = false →
    s.link.assembler = some p →
    fe = true
      ∨ (p.bytes = [] ∧ (byte.toNat < 2 ∨ 66 < byte.toNat))
      ∨ (∃ length rest, p.bytes = length :: rest ∧ rest.length + 1 = length.toNat + 2
          ∧ ((rest ++ [byte]).drop length.toNat
                ≠ [lowByte (crc16 (length :: rest.take length.toNat)), highByte (crc16 (length :: rest.take length.toNat))]
              ∨ (rest.head? ≠ some 0x01#8 ∧ rest.head? ≠ some 0x02#8)
              ∨ (rest.head? = some 0x02#8 ∧ length.toNat ≠ 4))) →
    exec (.hostFrameDiscarded byte fe) s =
      .next { s with link := { s.link with
        awaitsMark := fe, assembler := none
        counters := { s.link.counters with badFrames := min (s.link.counters.badFrames + 1) 65535 } } })
  ∧ (∀ (s : State) (p : HostPartial), s.link.assembler = some p → p.timer.isSome →
      exec .hostFrameGapTimeout s =
        .next { s with link := { s.link with
          assembler := none
          counters := { s.link.counters with frameTimeouts := min (s.link.counters.frameTimeouts + 1) 65535 } } })

/-- R163, R166, R167, R170: the last byte of a whole REQUEST frame brings the request to the intake by four tests: a response
cached for its number and CRC is queued again, or dropped when 8 wait; a request that waits already is dropped; at 4
waiting requests it is answered BACKOFF, or that answer dropped when 8 wait; otherwise it joins the tail of the
intake. The first three touch nothing else but their counters. (A request whose steps wait for a driver release waits
too, and keeps a place of the response queue: the model's reading, assumption 8. That backoffs does not rise when the
BACKOFF is dropped is the model's reading, assumption 16.) -/
def Obligations.RequestsArriveAtTheIntake : Prop :=
  ∀ (s : State) (bytes : List Byte) (timer : Option Nat) (byte number : Byte) (body : List Byte),
    s.inReset = false → s.link.awaitsMark = false → s.link.assembler = some ⟨bytes, timer⟩ → body.length ≤ 64 →
    0xA5#8 :: (bytes ++ [byte]) = hostFrame 0x01#8 number body → s.link.session.state ≠ .stalled →
    let r : Request := ⟨number, crc16 (b8 (body.length + 2) :: 0x01#8 :: number :: body), body⟩
    let k : Link := { s.link with assembler := none }
    let room := s.link.responses.length + (if s.link.held.isSome then 1 else 0) < 8
    let cached := s.link.cache.find? fun e => e.number == r.number && e.crc == r.crc
    let waits := ∃ q ∈ s.link.intake ++ s.link.held.toList, q.number = r.number ∧ q.crc = r.crc
    let duplicate := min (s.link.counters.duplicateRequests + 1) 65535
    let dropped := min (s.link.counters.responsesDropped + 1) 65535
    (∀ e, cached = some e → room → exec (.requestArrival byte) s =
        .next { s with link := { k with
          responses := k.responses ++ [⟨number, e.body, false⟩]
          counters := { k.counters with duplicateRequests := duplicate } } })
    ∧ (∀ e, cached = some e → ¬room → exec (.requestArrival byte) s =
        .next { s with link := { k with
          counters := { k.counters with duplicateRequests := duplicate, responsesDropped := dropped } } })
    ∧ (cached = none → waits → exec (.requestArrival byte) s =
        .next { s with link := { k with counters := { k.counters with duplicateRequests := duplicate } } })
    ∧ (cached = none → ¬waits → 4 ≤ s.link.intake.length → room → exec (.requestArrival byte) s =
        .next { s with link := { k with
          responses := k.responses ++ [⟨number, [0x02#8], false⟩]
          counters := { k.counters with backoffs := min (k.counters.backoffs + 1) 65535 } } })
    ∧ (cached = none → ¬waits → 4 ≤ s.link.intake.length → ¬room → exec (.requestArrival byte) s =
        .next { s with link := { k with counters := { k.counters with responsesDropped := dropped } } })
    ∧ (cached = none → ¬waits → s.link.intake.length < 4 → exec (.requestArrival byte) s =
        .next { s with link := { k with intake := k.intake ++ [r] } })

/-- R176, R165: a valid frame taken in STALLED first returns the session to OPEN with a retransmission count of 0 and
a resend run at the head, raising retransmission runs, and is then taken as it would be in OPEN. -/
def Obligations.ValidFramesEndAStall : Prop :=
  ∀ (s : State) (bytes : List Byte) (timer : Option Nat) (byte number : Byte) (body : List Byte),
    s.inReset = false → s.link.awaitsMark = false → s.link.assembler = some ⟨bytes, timer⟩ → s.link.session.state = .stalled →
    let reopened : State := { s with link := { s.link with
      session := { s.link.session with
        state := .opened, retransmissions := 0, run := s.queue.entries.head?.map (·.seq) }
      counters := { s.link.counters with
        retransmissionRuns := min (s.link.counters.retransmissionRuns + 1) 65535 } } }
    (0xA5#8 :: (bytes ++ [byte]) = hostFrame 0x01#8 number body → body.length ≤ 64 →
      exec (.requestArrival byte) s = exec (.requestArrival byte) reopened)
    ∧ (0xA5#8 :: (bytes ++ [byte]) = hostFrame 0x02#8 number body → body.length = 2 →
      exec (.ack byte) s = exec (.ack byte) reopened)

/-- R174, R157: an ACK of the number n of a sent entry removes the entries from the head up to and including it and
sets the retransmission count to 0; if sent entries remain, a run's position is kept while its entry stands in the
queue and otherwise moves to the new head, and the acknowledgement timer is started afresh; otherwise the timer is
stopped and a run ends. An ACK of any other number is stray: it is counted, and nothing else changes. -/
def Obligations.AcknowledgementsRemoveEntries : Prop :=
  ∀ (s : State) (bytes : List Byte) (timer : Option Nat) (byte number : Byte) (n : Half),
    s.inReset = false → s.link.awaitsMark = false → s.link.assembler = some ⟨bytes, timer⟩ → s.link.session.state ≠ .stalled →
    0xA5#8 :: (bytes ++ [byte]) = hostFrame 0x02#8 number [lowByte n, highByte n] →
    (∀ (old : List Entry) (e : Entry) (rest : List Entry),
      s.queue.entries = old ++ e :: rest → e.seq = n → e.sent = true → (∀ x ∈ old, x.seq ≠ n) →
      (∃ x ∈ rest, x.sent = true) →
      exec (.ack byte) s =
        .next { s with
          queue := { s.queue with entries := rest }
          link := { s.link with
            assembler := none
            session := { s.link.session with
              retransmissions := 0
              ackTimer := some s.link.session.timeout
              run := s.link.session.run.bind fun p =>
                if rest.any (·.seq == p) then some p else rest.head?.map (·.seq) } } })
    ∧ (∀ (old : List Entry) (e : Entry) (rest : List Entry),
      s.queue.entries = old ++ e :: rest → e.seq = n → e.sent = true → (∀ x ∈ old, x.seq ≠ n) →
      (∀ x ∈ rest, x.sent = false) →
      exec (.ack byte) s =
        .next { s with
          queue := { s.queue with entries := rest }
          link := { s.link with
            assembler := none
            session := { s.link.session with retransmissions := 0, ackTimer := none, run := none } } })
    ∧ ((∀ x ∈ s.queue.entries, x.sent = true → x.seq ≠ n) →
      exec (.ack byte) s =
        .next { s with link := { s.link with
          assembler := none
          counters := { s.link.counters with strayAcks := min (s.link.counters.strayAcks + 1) 65535 } } })

/-- R162, R163, R164, R167: a byte's character on the host link, ten levels, gives the byte back at the receiver's
samples without a framing error. A REQUEST frame of the host with a BODY of at most 64 bytes, received byte by byte while
the assembler seeks, ends in the intake: its first bytes are collected, its last one makes the request arrive, and
besides the request at the intake's tail nothing has changed. The same comes of the rows that the receiver's samples of
the frame's characters name. Samples name no row while power-on reset is in force or the receiver waits for mark; in
SEEKING they name the row that starts a frame or discards the byte; and with a framing error in COLLECTING the row that
discards the frame. -/
def Obligations.HostRequestFramesReachTheIntake : Prop :=
  let ran (c : Instr) (t : State) : Option State :=
    match exec c t with
    | .next u => some u
    | _ => none
  (∀ byte : Byte,
    hostCharacterLevels byte = false :: ((List.range 8).map fun i => byte.getLsbD i) ++ [true]
      ∧ receivedHostCharacter ((hostCharacterLevels byte).drop 1) = (byte, false))
  ∧ (∀ (s : State) (byte : Byte) (fe : Bool),
    let samples := (List.range 8).map (fun i => byte.getLsbD i) ++ [!fe]
    (s.inReset = true ∨ s.link.awaitsMark = true → s.hostReceipt samples = none)
    ∧ (s.inReset = false → s.link.awaitsMark = false → s.link.assembler = none →
        s.hostReceipt samples =
          some (if byte = 0xA5 ∧ fe = false then .hostByteReceived byte else .byteDiscarded byte fe))
    ∧ (s.inReset = false → s.link.awaitsMark = false → s.link.assembler.isSome → fe = true →
        s.hostReceipt samples = some (.hostFrameDiscarded byte fe)))
  ∧ ∀ (s : State) (number : Byte) (body front : List Byte) (last : Byte),
    s.inReset = false → s.link.awaitsMark = false → s.link.assembler = none → body.length ≤ 64 →
    s.link.session.state ≠ .stalled →
    hostFrame 0x01#8 number body = front ++ [last] →
    let r : Request := ⟨number, crc16 (b8 (body.length + 2) :: 0x01#8 :: number :: body), body⟩
    (∀ e ∈ s.link.cache, ¬(e.number = r.number ∧ e.crc = r.crc)) →
    (∀ q ∈ s.link.intake ++ s.link.held.toList, ¬(q.number = r.number ∧ q.crc = r.crc)) →
    s.link.intake.length < 4 →
    front.foldlM (fun t b => ran (.hostByteReceived b) t) s >>= ran (.requestArrival last)
        = some { s with link := { s.link with intake := s.link.intake ++ [r] } }
    ∧ (front ++ [last]).foldlM
          (fun t b => t.hostReceipt ((hostCharacterLevels b).drop 1) >>= fun c => ran c t) s
        = some { s with link := { s.link with intake := s.link.intake ++ [r] } }

/-! ### The intake's head -/

/-- R168, R184, R169: a request at the head of the intake that may be taken is answered BAD_REQUEST when its code is
unknown, its body empty or its length not the code's, and NO_SESSION when it fits, the session is CLOSED and it is
neither IDENTIFY nor OPEN_SESSION. The row is the one of its code, or UNKNOWN_REQUEST_CODE. (That a wrong length is
answered within the row of its code, and an empty body by UNKNOWN_REQUEST_CODE, is the model's choice, assumption 5.)
The response is queued and cached, and nothing else changes. R168, R170, R180: while the response queue has no free
place, while a restart waits, and while a request waits for a driver release (the model's reading, assumption 8), no
request is taken: every request row leaves the state as it is (the model's choice for a row whose event cannot occur,
assumption 3). -/
def Obligations.RequestsWaitOrAreRefused : Prop :=
  (∀ (s : State) (r : Request) (rest : List Request), AtHead s r rest →
      (requestLength r.body ≠ some r.body.length →
        exec (rowOfCode (requestCode r.body)) s = .next (refusedWith r rest .badRequest s))
      ∧ (requestLength r.body = none → exec .unknownRequestCode s = .next (refusedWith r rest .badRequest s))
      ∧ (requestLength r.body = some r.body.length → s.link.session.state = .closed →
          requestCode r.body ≠ some 0x01 → requestCode r.body ≠ some 0x02 →
          exec (rowOfCode (requestCode r.body)) s = .next (refusedWith r rest .noSession s)))
  ∧ (∀ (s : State) (code : Option Nat),
      8 ≤ s.link.responses.length + (if s.link.held.isSome then 1 else 0) ∨ s.link.restartWaiting = true
        ∨ s.link.held.isSome →
      exec (rowOfCode code) s = .next s)

/-! ### Requests of the host link -/

/-- R171, R172, R148, R159: OPEN_SESSION, in every session state, is refused BAD_PARAMETER for a window outside 1 to
16 or a timeout outside 50 to 5000, and otherwise empties the entries if the discard flag is set, clears every sent
mark, ends a run, sets the retransmission count to 0, stops the acknowledgement timer, takes the values, opens the
session, stops HELLO and answers with the oldest sequence number. CLOSE_SESSION clears the marks, the run, the count
and the timer and closes the session. -/
def Obligations.SessionsOpenAndClose : Prop :=
  (∀ (s : State) (r : Request) (rest : List Request) (window low high flag : Byte), AtHead s r rest →
    r.body = [0x02#8, window, low, high, flag] →
    let timeout := low.toNat + 256 * high.toNat
    let inRange := 1 ≤ window.toNat ∧ window.toNat ≤ 16 ∧ 50 ≤ timeout ∧ timeout ≤ 5000
    let entries := if flag = 0 then s.queue.entries.map fun e => { e with sent := false } else []
    let oldest := (entries.head?.map (·.seq)).getD s.queue.seqCounter
    (¬inRange → exec .openSession s = .next (refusedWith r rest .badParameter s))
    ∧ (inRange → exec .openSession s =
        .next (answered r .ok [lowByte oldest, highByte oldest]
          { s with
            queue := { s.queue with entries }
            link := { s.link with
              intake := rest
              session :=
                { state := .opened, window := window.toNat, timeout, retransmissions := 0, ackTimer := none, run := none }
              helloRepeat := false, helloTimer := none, helloWaiting := false } })))
  ∧ (∀ (s : State) (r : Request) (rest : List Request), Handed s r rest → r.body = [0x03#8] →
      exec .closeSession s =
        .next (answered r .ok []
          { s with
            queue := { s.queue with entries := s.queue.entries.map fun e => { e with sent := false } }
            link := { s.link with
              intake := rest
              session := { s.link.session with
                state := .closed, retransmissions := 0, ackTimer := none, run := none } } }))

/-- R180: RESTART taken in OPEN or STALLED queues and caches the response OK, which carries the restart, and the
restart waits; nothing else changes yet. -/
def Obligations.RestartWaitsForItsResponse : Prop :=
  ∀ (s : State) (r : Request) (rest : List Request), Handed s r rest → r.body = [0x04#8] →
    ∃ t, answered r .ok [] (headTaken rest s) = t
      ∧ exec .restart s =
          .next { t with link := { t.link with
            responses := s.link.responses ++ [⟨r.number, [0x00#8], true⟩], restartWaiting := true } }

/-- R180, R20, R23, R39, R69, R88, R107, R125, R127, R128, R133, R141, R143, R158, R171: when RESTART's own response has
left, the restart is taken as a whole, by RESTART_TAKEN as by HOST_FRAME_END (that these are one event under two names
is the model's reading, assumption 6). Definitions, line configurations, outputs, strap reading, window and timeout
are kept, and a wait for mark of the host receiver goes on (the model's choice, assumption 27); all else goes to its
beginning, counters to 0, and HELLO RESTART is set waiting. The character in the shift path of a line is sent whole: an
exchange's in TRANSMIT, whose driver stays asserted until it has completed (R25), a line test's in SENDING, on the
internal loop, or one that an earlier RESTART left to complete (that all else is applied at once is the model's choice,
assumption 9). -/
def Obligations.RestartIsTakenAsAWhole : Prop :=
  ∀ (s : State) (f : HostFrame), s.link.sending = some f → f.kind = .restartResponse →
    ∃ t, exec .restartTaken s = .next t ∧ exec .hostFrameEnd s = .next t
      ∧ (∀ n, t.station n = (s.station n).map fun e =>
          { e with
            current := e.home, toggle := false, failures := 0, busyStreak := 0, counters := ⟨0, 0, 0, 0, 0, 0⟩
            sticky := 0, lastFailure := none, notice := false, changeCount := 0, lastCause := none, pollDue := false
            pollTimer := none, holdoffTimer := none, pendingDisable := false
            state := if e.state = .disabled ∨ e.pendingDisable = true then .disabled else .probing
            probeTimer := if e.state = .disabled ∨ e.pendingDisable = true then none else some 0 })
      ∧ (∀ l, t.line l =
          let frameOf (t : LineTest) :=
            lineFrame 0 (if t.index % 2 = 1 then 0x14#8 else 0x04#8) ((List.range 32).map fun p => b8 (7 * t.index + p))
          let completing : Option (LineCharacter × Bool) :=
            match (s.line l).ending, (s.line l).exchange, (s.line l).test with
            | some (.restart c looped), _, _ => some (c, looped)
            | _, some x, _ =>
              if x.phase = .transmit then some (⟨x.frame.getD x.charsSent 0, x.charsSent == 0⟩, false) else none
            | _, none, some t =>
              if t.phase = .sending then some (⟨(frameOf t).getD t.charsSent 0, t.charsSent == 0⟩, true) else none
            | _, none, none => none
          { mode := .off, config := (s.line l).config, counters := ⟨0, 0, 0, 0, 0, 0, 0, 0, 0, 0⟩, stuck := false
            driver := completing.any (!·.2), rxMark := (s.line l).rxMark, awaitsMark := false, assembler := none
            ending := completing.map fun c => .restart c.1 c.2
            notice := false, noticeCause := none, scan := none, test := none, exchange := none, walk := none
            commandCount := 0, scanCount := 0
            probeList := (List.range 48).filter fun n =>
              (s.station n).any fun e => !(e.state == .disabled || e.pendingDisable) && e.home == l })
      ∧ t.pool = { records := [], acceptCount := 0 }
      ∧ t.queue = { entries := [], reservations := 0, seqCounter := 0 }
      ∧ t.link =
          { rate1 := s.link.rate1, rate0 := s.link.rate0, ctsLow := s.link.ctsLow, awaitsMark := s.link.awaitsMark
            assembler := none, intake := [], cache := [], responses := []
            session :=
              { state := .closed, window := s.link.session.window, timeout := s.link.session.timeout
                retransmissions := 0, ackTimer := none, run := none }
            counters := ⟨0, 0, 0, 0, 0, 0, 0, 0, 0⟩
            sending := none, helloWaiting := true, helloRepeat := true, helloTimer := some 1000, helloCause := .restart
            restartWaiting := false, held := none }
      ∧ t.outputs = s.outputs ∧ t.pending = s.pending

/-- R179, R186: IDENTIFY is answered OK in every session state with the vendor code 0x4C4B, the part code 0x2B30, the
revision 1 and the capacities 48, 64, 128, 2 and 4, and changes nothing else. R179, R166, R186: READ_LINK_STATUS
answers OK with the link as it stands, 32 bytes in the order of R186, and with its clear flag set then sets the nine
link counters to 0; nothing else changes. R160, R148, R150, R186: READ_QUEUE_STATUS answers OK with the queue as it
stands, 19 bytes in the order of R186: its entries and reservations, who holds them, the free, unsent and sent counts,
the oldest and next numbers, captures lost and the notices waiting. Nothing else changes. -/
def Obligations.IdentityAndStatusAreReturned : Prop :=
  (∀ (s : State) (r : Request) (rest : List Request), AtHead s r rest → r.body = [0x01#8] →
      exec .identify s =
        .next (answered r .ok [0x4B#8, 0x4C#8, 0x30#8, 0x2B#8, 1#8, 48#8, 64#8, 128#8, 2#8, 4#8] (headTaken rest s)))
  ∧ (∀ (s : State) (r : Request) (rest : List Request) (flag : Byte), Handed s r rest → r.body = [0x05#8, flag] →
      let k : Link := { s.link with intake := rest }
      let c := k.session
      let state := match c.state with
        | .closed => 0
        | .opened => 1
        | .stalled => 2
      let bit (b : Bool) (i : Nat) := if b then 2 ^ i else 0
      let data :=
        [b8 (1 + bit k.rate0 0 + bit k.rate1 1), b8 (bit k.rate0 0 + bit k.rate1 1), b8 state, b8 c.window]
          ++ le16 c.timeout ++ [b8 c.retransmissions] ++ le16 (c.ackTimer.getD 0xFFFF) ++ le16 ((c.run.map (·.toNat)).getD 0)
          ++ [b8 (bit c.run.isSome 0 + bit k.helloRepeat 1 + bit (rest.length == 4) 2 + bit k.ctsLow 3), b8 rest.length,
            b8 k.responses.length]
          ++ le16 k.counters.bytesDiscarded ++ le16 k.counters.badFrames ++ le16 k.counters.frameTimeouts
          ++ le16 k.counters.duplicateRequests ++ le16 k.counters.backoffs ++ le16 k.counters.responsesDropped
          ++ le16 k.counters.strayAcks ++ le16 k.counters.retransmissionRuns ++ le16 k.counters.stalls
      data.length = 32
      ∧ exec .readLinkStatus s =
          .next (answered r .ok data
            { s with link := { k with counters := if flag = 0 then k.counters else ⟨0, 0, 0, 0, 0, 0, 0, 0, 0⟩ } }))
  ∧ (∀ (s : State) (r : Request) (rest : List Request), Handed s r rest → r.body = [0x06#8] →
      let q := s.queue
      let count (p : Line → Bool) := (if p s.lineA then 1 else 0) + (if p s.lineB then 1 else 0)
      let sent := (q.entries.filter (·.sent)).length
      let oldest := (q.entries.head?.map (·.seq)).getD q.seqCounter
      let notices := ((List.range 48).filter fun n => (s.station n).any (·.notice)).length
      let data :=
        [b8 q.entries.length, b8 q.reservations, b8 s.pool.records.length, b8 (count fun ln => ln.scan.isSome),
            b8 (count fun ln => ln.test.isSome), b8 (count fun ln => ln.exchange.any (·.holdsReservation)),
            b8 (128 - (q.entries.length + q.reservations)), b8 (q.entries.length - sent), b8 sent]
          ++ le16 oldest.toNat ++ le16 q.seqCounter.toNat ++ le16 s.lineA.counters.capturesLost
          ++ le16 s.lineB.counters.capturesLost
          ++ [b8 ((if s.lineA.notice then 1 else 0) + (if s.lineB.notice then 2 else 0)), b8 notices]
      data.length = 19 ∧ exec .readQueueStatus s = .next (answered r .ok data (headTaken rest s)))

/-! ### Station requests -/

/-- R12, R4, R2, R185, R6, R7, R10: DEFINE_STATION is refused BAD_PARAMETER for a parameter out of range (DEFAULT is a
poll period of 500, a retry limit of 2, an offline threshold of 3), STATION_EXISTS for a defined entry, ADDRESS_IN_USE
where a line it would claim carries the address, in that order. Otherwise the entry is defined with its operating
fields at their beginning; with enable it enters PROBING at the tail of its home line's probe list, without it
DISABLED; and its notice is set with cause DEFINE. -/
def Obligations.DefineStationFillsAnEntry : Prop :=
  ∀ (s : State) (r : Request) (rest : List Request) (n address home alternate low high retry threshold enable : Byte),
    Handed s r rest →
    r.body = [0x10#8, n, address, home, alternate, low, high, retry, threshold, enable] →
    let line (b : Byte) : LineId := if b = 0 then .a else .b
    let period := if low = 0xFF ∧ high = 0xFF then 500 else low.toNat + 256 * high.toNat
    let retryLimit := if retry = 0xFF then 2 else retry.toNat
    let offlineThreshold := if threshold = 0xFF then 3 else threshold.toNat
    let inRange := n.toNat ≤ 47 ∧ 1 ≤ address.toNat ∧ address.toNat ≤ 250 ∧ home.toNat ≤ 1
      ∧ (alternate.toNat ≤ 1 ∨ alternate = 0xFF) ∧ alternate ≠ home ∧ (period = 0 ∨ 10 ≤ period ∧ period ≤ 60000)
      ∧ retryLimit ≤ 7 ∧ 1 ≤ offlineThreshold ∧ offlineThreshold ≤ 15
    let taken (l : LineId) := ∃ m e, s.station m = some e ∧ e.address = address.toNat ∧ (e.home = l ∨ e.alternate = some l)
    let inUse := taken (line home) ∨ (alternate.toNat ≤ 1 ∧ taken (line alternate))
    let e : Station :=
      { address := address.toNat, home := line home
        alternate := if alternate = 0xFF then none else some (line alternate)
        current := line home, pollPeriod := period, retryLimit, offlineThreshold
        state := if enable = 0 then .disabled else .probing
        toggle := false, failures := 0, busyStreak := 0, pollDue := false, pollTimer := none, holdoffTimer := none
        probeTimer := if enable = 0 then none else some 0
        pendingDisable := false, sticky := 0, lastFailure := none, counters := ⟨0, 0, 0, 0, 0, 0⟩, notice := true
        changeCount := 1, lastCause := some .define }
    (¬inRange → exec .defineStation s = .next (refusedWith r rest .badParameter s))
    ∧ (inRange → (s.station n.toNat).isSome → exec .defineStation s = .next (refusedWith r rest .stationExists s))
    ∧ (inRange → s.station n.toNat = none → inUse →
        exec .defineStation s = .next (refusedWith r rest .addressInUse s))
    ∧ (inRange → s.station n.toNat = none → ¬inUse →
        exec .defineStation s =
          .next (answered r .ok []
            (probeListed (if enable = 0 then none else some (line home)) n.toNat
              ((headTaken rest s).setStation n.toNat (some e)))))

/-- R13, R2: MODIFY_STATION is refused BAD_PARAMETER for a number or value out of range, then NO_STATION, and
otherwise writes the three parameters. Period 0 stops the poll timer and clears the due mark; a running timer is
started with the new period if that is below the old one, and otherwise keeps its time; a stopped one is started with
it in ONLINE and SUSPECT with no POLL in flight. -/
def Obligations.ModifyStationWritesTheParameters : Prop :=
  ∀ (s : State) (r : Request) (rest : List Request) (n low high retry threshold : Byte), Handed s r rest →
    r.body = [0x11#8, n, low, high, retry, threshold] →
    let period := low.toNat + 256 * high.toNat
    let inRange := n.toNat ≤ 47 ∧ (period = 0 ∨ 10 ≤ period ∧ period ≤ 60000) ∧ retry.toNat ≤ 7 ∧ 1 ≤ threshold.toNat
      ∧ threshold.toNat ≤ 15
    exec .modifyStation s =
      .next
        (if ¬inRange then refusedWith r rest .badParameter s
        else
          stationRequest r rest n s fun e =>
            answered r .ok []
              ((headTaken rest s).setStation n.toNat
                (some
                  { e with
                    retryLimit := retry.toNat
                    offlineThreshold := threshold.toNat
                    pollPeriod := period
                    pollDue := if period = 0 then false else e.pollDue
                    pollTimer :=
                      if period = 0 then none
                      else
                        match e.pollTimer with
                        | some t => some (if period < e.pollPeriod then period else t)
                        | none =>
                          if (e.state = .online ∨ e.state = .suspect) ∧ s.inFlightKind n.toNat ≠ some .poll then
                            some period
                          else none })))

/-- R14, R102: REMOVE_STATION is refused BAD_PARAMETER, NO_STATION, then STATION_BUSY while an exchange with the
station is in flight. Otherwise its live records complete REMOVED, oldest first, it leaves its probe list, and the
entry becomes undefined. -/
def Obligations.RemoveStationEmptiesTheEntry : Prop :=
  ∀ (s : State) (r : Request) (rest : List Request) (n : Byte), Handed s r rest → TagsDistinct s →
    r.body = [0x12#8, n] →
    exec .removeStation s =
      .next
        (stationRequest r rest n s fun _ =>
          if (s.inFlightKind n.toNat).isSome then refusedWith r rest .stationBusy s
          else
            answered r .ok []
              ((probeListed none n.toNat
                (recordsDone (s.pool.records.filter (·.station == some n.toNat)) .removed (headTaken rest s))).setStation
                  n.toNat none))

/-- R15, R6, R10: ENABLE_STATION is refused BAD_PARAMETER for a number above 47, then NO_STATION. In DISABLED the
station's current line becomes its home line, and it enters PROBING with its notice set, cause ENABLE; in any other
state a pending disable is cleared, and nothing else changes. R16, R7, R102, R10: DISABLE_STATION is refused
BAD_PARAMETER for a number above 47, then NO_STATION. In DISABLED, or with the disable already pending, nothing
changes; with an exchange in flight it becomes pending; otherwise the station enters DISABLED, leaving its probe list,
its live records complete DISABLED, oldest first, and its notice is set. -/
def Obligations.StationsAreEnabledAndDisabled : Prop :=
  (∀ (s : State) (r : Request) (rest : List Request) (n : Byte), Handed s r rest → r.body = [0x13#8, n] →
      exec .enableStation s =
        .next
          (stationRequest r rest n s fun e =>
            answered r .ok []
              (if e.state = .disabled then
                probeListed (some e.home) n.toNat
                  ((headTaken rest s).setStation n.toNat
                    (some
                      (noticed
                        { e with
                          current := e.home, state := .probing, probeTimer := some 0, failures := 0, busyStreak := 0
                          pollDue := false, pollTimer := none, holdoffTimer := none }
                        .enable)))
              else (headTaken rest s).setStation n.toNat (some { e with pendingDisable := false }))))
  ∧ (∀ (s : State) (r : Request) (rest : List Request) (n : Byte), Handed s r rest → TagsDistinct s →
      r.body = [0x14#8, n] →
      exec .disableStation s =
        .next
          (stationRequest r rest n s fun e =>
            answered r .ok []
              (if e.state = .disabled ∨ e.pendingDisable = true then headTaken rest s
              else if (s.inFlightKind n.toNat).isSome then
                (headTaken rest s).setStation n.toNat (some { e with pendingDisable := true })
              else
                probeListed none n.toNat
                  ((recordsDone (s.pool.records.filter (·.station == some n.toNat)) .disabled
                    (headTaken rest s)).setStation n.toNat
                      (some
                        (noticed
                          { e with
                            state := .disabled, pollTimer := none, holdoffTimer := none, probeTimer := none
                            pollDue := false, pendingDisable := false, failures := 0, busyStreak := 0 }
                          .disable))))))

/-- R18, R1, R186: READ_STATION is refused BAD_PARAMETER for a number above 47, and otherwise answers OK with 38 bytes
in the order of R186: the entry as it stands, or the blank entry where none is defined. Nothing changes. (That the
blank entry carries the station number asked for is the model's choice, assumption 26.) -/
def Obligations.ReadStationReturnsTheEntry : Prop :=
  ∀ (s : State) (r : Request) (rest : List Request) (n : Byte), Handed s r rest → r.body = [0x15#8, n] →
    let bit (b : Bool) (i : Nat) := if b then 2 ^ i else 0
    let line : LineId → Byte
      | .a => 0
      | .b => 1
    let timer (t : Option Nat) := le16 (t.getD 0xFFFF)
    let entry (e : Station) : List Byte :=
      [n, b8 (1 + bit e.toggle 1 + bit e.pollDue 2 + bit e.pendingDisable 3 + bit e.notice 4), b8 e.address, line e.home,
          (e.alternate.map line).getD 0xFF, line e.current]
        ++ le16 e.pollPeriod ++ [b8 e.retryLimit, b8 e.offlineThreshold, b8 e.state.code, b8 e.failures, b8 e.busyStreak]
        ++ timer e.pollTimer ++ timer e.holdoffTimer ++ timer e.probeTimer ++ [lowByte e.sticky, highByte e.sticky]
        ++ [b8 ((e.lastFailure.map FailureKind.code).getD 0)]
        ++ le16 e.counters.completed ++ le16 e.counters.attemptsFailed ++ le16 e.counters.busyReplies
        ++ le16 e.counters.dataReports ++ le16 e.counters.lineSwitches ++ le16 e.counters.probesSent
        ++ [b8 e.changeCount, b8 (stationCauseCode e.lastCause),
          b8 (((s.inFlightKind n.toNat).map ExchangeKind.code).getD 0),
          b8 (s.pool.records.filter (·.station == some n.toNat)).length]
    let blank : List Byte :=
      [n, 0, 0, 0xFF, 0xFF, 0xFF, 0, 0, 0, 0, 0xFF, 0, 0, 0xFF, 0xFF, 0xFF, 0xFF, 0xFF, 0xFF] ++ List.replicate 19 0
    (∀ e, (entry e).length = 38)
    ∧ exec .readStation s =
        .next
          (if 47 < n.toNat then refusedWith r rest .badParameter s
          else
            match s.station n.toNat with
            | none => answered r .ok blank (headTaken rest s)
            | some e => answered r .ok (entry e) (headTaken rest s))

/-- R19: CLEAR_STATION_ERRORS is refused BAD_PARAMETER for a number above 47, then NO_STATION. Otherwise the sticky
error set becomes empty and the last failure none, the six counters become 0 if the flag is set, and nothing else
changes. An attempt with the station that fails afterwards, of any kind, enters the emptied set and raises the cleared
counter; one that gets no reply does so fail, with TIMEOUT. -/
def Obligations.ClearStationErrorsClearsTheRecord : Prop :=
  ∀ (s : State) (r : Request) (rest : List Request) (n flag : Byte), Handed s r rest → r.body = [0x16#8, n, flag] →
    exec .clearStationErrors s =
        .next
          (stationRequest r rest n s fun e =>
            answered r .ok []
              ((headTaken rest s).setStation n.toNat
                (some
                  { e with
                    sticky := 0, lastFailure := none
                    counters := if flag = 0 then e.counters else ⟨0, 0, 0, 0, 0, 0⟩ })))
    ∧ (∀ (e : Station) (l : LineId) (x : Exchange), s.station n.toNat = some e → (s.line l).exchange = some x →
        x.station = some n.toNat → x.phase = .await → x.kind ≠ .rollCall →
        ∃ t u f, exec .clearStationErrors s = .next t ∧ exec (.replyStartTimeout l) t = .next u
          ∧ u.station n.toNat = some f ∧ f.sticky = 1 ∧ f.lastFailure = some .timeout
          ∧ (flag ≠ 0 → f.counters.attemptsFailed = 1))
    ∧ ∀ (l : LineId) (byte : Byte) (fe : Bool) (c : Instr) (t u : State) (f : Station) (k : FailureKind),
        n.toNat ≤ 47 →
        c ∈ [Instr.replyStartTimeout l, .addressCharacterReceived l byte fe, .lengthAbandon l byte fe,
          .intercharacterTimeout l, .frameReceived l byte fe] →
        exec .clearStationErrors s = .next t → exec c t = .next u → u.station n.toNat = some f →
        f.lastFailure = some k →
        f.sticky = 1#16 <<< (k.code - 1) ∧ (flag ≠ 0 → f.counters.attemptsFailed = 1)

/-- R80: REQUEST_POLL is refused BAD_PARAMETER for a number above 47, then NO_STATION, STATION_DISABLED in DISABLED
and STATION_OFFLINE in PROBING and OFFLINE. In ONLINE and SUSPECT the poll due mark is set and the answer is OK; the
poll timer stays as it is and no reservation is taken. -/
def Obligations.RequestPollSetsTheDueMark : Prop :=
  ∀ (s : State) (r : Request) (rest : List Request) (n : Byte), Handed s r rest → r.body = [0x17#8, n] →
    exec .requestPoll s =
      .next
        (stationRequest r rest n s fun e =>
          match e.state with
          | .disabled => refusedWith r rest .stationDisabled s
          | .probing => refusedWith r rest .stationOffline s
          | .offline => refusedWith r rest .stationOffline s
          | _ => answered r .ok [] ((headTaken rest s).setStation n.toNat (some { e with pollDue := true })))

/-! ### Commands -/

/-- R95, R96, R89, R90, R93, R94, R146, R151: the submissions are refused by their checks in order: BAD_PARAMETER,
NO_STATION, STATION_DISABLED, STATION_OFFLINE, TAG_IN_USE, STATION_QUEUE_FULL at 4 records, POOL_FULL at 64,
NO_REPORT_SPACE at 128 entries and reservations. Otherwise a reservation is granted and a QUEUED record with the next
acceptance number joins the pool, for the station on its current line, or for the broadcast's line. -/
def Obligations.SubmissionsCreateRecords : Prop :=
  ∀ (s : State) (r : Request) (rest : List Request) (low high n length : Byte) (payload : List Byte),
    Handed s r rest → payload.length = length.toNat →
    let tag : Half := BitVec.ofNat 16 (low.toNat + 256 * high.toNat)
    let lengthBad := length = 0 ∨ 32 < length.toNat
    let tagLive := ∃ q ∈ s.pool.records, q.tag = tag
    let poolFull := 64 ≤ s.pool.records.length
    let noSpace := 128 ≤ s.queue.entries.length + s.queue.reservations
    let accepted (station : Option Nat) (l : LineId) : State :=
      answered r .ok []
        { headTaken rest s with
          queue := { s.queue with reservations := s.queue.reservations + 1 }
          pool :=
            { records := s.pool.records ++
                [⟨tag, station, l, s.pool.acceptCount, payload, .queued, 0, none, false, false⟩]
              acceptCount := s.pool.acceptCount + 1 } }
    (r.body = 0x30#8 :: low :: high :: n :: length :: payload →
      exec .submitCommand s =
        .next
          (if lengthBad then refusedWith r rest .badParameter s
          else
            stationRequest r rest n s fun e =>
              if e.state = .disabled then refusedWith r rest .stationDisabled s
              else if e.state = .offline then refusedWith r rest .stationOffline s
              else if tagLive then refusedWith r rest .tagInUse s
              else if 4 ≤ (s.pool.records.filter (·.station == some n.toNat)).length then
                refusedWith r rest .stationQueueFull s
              else if poolFull then refusedWith r rest .poolFull s
              else if noSpace then refusedWith r rest .noReportSpace s
              else accepted (some n.toNat) e.current))
    ∧ (r.body = 0x31#8 :: low :: high :: n :: length :: payload →
      exec .submitBroadcast s =
        .next
          (if lengthBad then refusedWith r rest .badParameter s
          else
            lineRequest r rest n s fun l =>
              if tagLive then refusedWith r rest .tagInUse s
              else if poolFull then refusedWith r rest .poolFull s
              else if noSpace then refusedWith r rest .noReportSpace s
              else accepted none l))

/-- R103, R99, R101: CANCEL_COMMAND is refused UNKNOWN_TAG when no live record has the tag. A QUEUED record completes
CANCELLED and the answer is OK; if it was its station's oldest, the busy streak becomes 0. An IN_FLIGHT record gets
its cancel pending flag, and the answer is IN_FLIGHT. -/
def Obligations.CancelCommandFindsTheRecord : Prop :=
  ∀ (s : State) (r : Request) (rest : List Request) (low high : Byte), Handed s r rest → TagsDistinct s →
    r.body = [0x32#8, low, high] →
    let tag : Half := BitVec.ofNat 16 (low.toNat + 256 * high.toNat)
    ((∀ q ∈ s.pool.records, q.tag ≠ tag) → exec .cancelCommand s = .next (refusedWith r rest .unknownTag s))
    ∧ (∀ q ∈ s.pool.records, q.tag = tag → q.state = .inFlight →
        exec .cancelCommand s =
          .next (answered r .inFlight []
            { headTaken rest s with
              pool := { s.pool with
                records := s.pool.records.map fun c => if c.tag = tag then { c with cancelPending := true } else c } }))
    ∧ (∀ q ∈ s.pool.records, q.tag = tag → q.state = .queued →
        let others := s.pool.records.takeWhile (·.tag != tag)
        exec .cancelCommand s =
          .next (answered r .ok []
            (match q.station with
            | none => recordDone q .cancelled [] (headTaken rest s)
            | some n =>
              if ∃ c ∈ others, c.station = some n then recordDone q .cancelled [] (headTaken rest s)
              else
                (recordDone q .cancelled [] (headTaken rest s)).onStation n fun e => { e with busyStreak := 0 })))

/-! ### Line requests -/

/-- R126, R125, R127, R65, R70, R141, R26, R29, R30: SET_LINE_MODE is refused BAD_PARAMETER for a line or mode out of
range, TEST included; to the line's own mode it changes nothing. With a character in the shift path it waits for its
completion (the way it waits is the model's, assumption 7). Otherwise it is answered OK after its steps: the line's work
ends first, in ACTIVE the exchange, which is cut off, then the scan MODE_CHANGE, and the scheduler's two counts become
0; in TEST the test ABORTED, where OFF stops. Then a partial frame is abandoned, the new mode taken and the notice set,
cause MODE_SET; OFF and MONITOR release the driver, but for one that a character left by RESTART still holds, which
keeps it until that character completes (the model's choice, assumption 9); OFF clears STUCK. -/
def Obligations.SetLineModeChangesTheMode : Prop :=
  ∀ (s : State) (r : Request) (rest : List Request) (line mode : Byte), Handed s r rest →
    r.body = [0x40#8, line, mode] →
    (1 < line.toNat ∨ 2 < mode.toNat → exec .setLineMode s = .next (refusedWith r rest .badParameter s))
    ∧ ∀ (l : LineId) (m : LineMode),
      (l = .a ∧ line = 0 ∨ l = .b ∧ line = 1) →
      (m = .off ∧ mode = 0 ∨ m = .active ∧ mode = 1 ∨ m = .monitor ∧ mode = 2) →
      ((s.line l).mode = m → exec .setLineMode s = .next (answered r .ok [] (headTaken rest s)))
      ∧ ((s.line l).mode ≠ m → (s.line l).transmitting = true →
          exec .setLineMode s =
            .next { (headTaken rest s).onLine l fun ln => { ln with ending := some (.modeChange m) } with
              link := { s.link with intake := rest, held := some r } })
      ∧ ((s.line l).mode ≠ m → (s.line l).transmitting = false → (s.line l).mode = .active →
          exec .setLineMode s =
            .next (answered r .ok []
              (modeTaken l m
                ((scanEnded l .modeChange (cutOff l (headTaken rest s))).onLine l fun ln =>
                  { ln with commandCount := 0, scanCount := 0 }))))
      ∧ (∀ t, (s.line l).mode = .test → (s.line l).transmitting = false → (s.line l).test = some t →
          exec .setLineMode s =
            .next (answered r .ok []
              (if m = .off then testEnded l t .aborted (headTaken rest s)
              else modeTaken l m (testEnded l t .aborted (headTaken rest s)))))
      ∧ ((s.line l).mode ≠ m → (s.line l).transmitting = false → (s.line l).mode = .off ∨ (s.line l).mode = .monitor →
          exec .setLineMode s = .next (answered r .ok [] (modeTaken l m (headTaken rest s))))

/-- R129, R128, R185, R142: CONFIGURE_LINE is refused BAD_PARAMETER for a line or value out of range (0 is DEFAULT),
then LINE_MODE unless the line is OFF; otherwise the ten parameters take the values given (at once too where a character
left by RESTART still completes on the line: the model's choice, assumption 9). CLEAR_LINE_COUNTERS sets the ten line
counters to 0 in any mode. -/
def Obligations.LinesAreConfiguredAndCleared : Prop :=
  (∀ (s : State) (r : Request) (rest : List Request)
      (line rate stop start inter gap pLow pHigh hLow hHigh busy streak scan : Byte), Handed s r rest →
    r.body = [0x41#8, line, rate, stop, start, inter, gap, pLow, pHigh, hLow, hHigh, busy, streak, scan] →
    let or0 (deflt n : Nat) := if n = 0 then deflt else n
    let rates : List LineRate := [.r1200, .r2400, .r4800, .r9600, .r19200, .r38400, .r57600, .r115200]
    let stopBits := or0 1 stop.toNat
    let replyStart := or0 20 start.toNat
    let intercharacter := or0 3 inter.toNat
    let lineGap := or0 4 gap.toNat
    let probeInterval := or0 2000 (pLow.toNat + 256 * pHigh.toNat)
    let busyHoldoff := or0 50 (hLow.toNat + 256 * hHigh.toNat)
    let busyLimit := or0 8 busy.toNat
    let commandStreak := or0 4 streak.toNat
    let scanStreak := or0 4 scan.toNat
    let inRange := (stopBits = 1 ∨ stopBits = 2) ∧ 2 ≤ replyStart ∧ 1 ≤ intercharacter ∧ intercharacter ≤ 15
      ∧ 2 ≤ lineGap ∧ lineGap ≤ 63 ∧ 100 ≤ probeInterval ∧ probeInterval ≤ 60000 ∧ 5 ≤ busyHoldoff
      ∧ busyHoldoff ≤ 5000 ∧ busyLimit ≤ 15 ∧ commandStreak ≤ 8 ∧ scanStreak ≤ 8
    exec .configureLine s =
      .next
        (lineRequest r rest line s fun l =>
          match rates[or0 4 rate.toNat - 1]? with
          | none => refusedWith r rest .badParameter s
          | some rate =>
            if ¬inRange then refusedWith r rest .badParameter s
            else if (s.line l).mode ≠ .off then refusedWith r rest .lineMode s
            else
              answered r .ok []
                ((headTaken rest s).onLine l fun ln =>
                  { ln with
                    config :=
                      { rate, stopBits, replyStart, intercharacter, lineGap, probeInterval, busyHoldoff, busyLimit,
                        commandStreak, scanStreak } })))
  ∧ (∀ (s : State) (r : Request) (rest : List Request) (line : Byte), Handed s r rest → r.body = [0x47#8, line] →
      exec .clearLineCounters s =
        .next
          (lineRequest r rest line s fun l =>
            answered r .ok []
              ((headTaken rest s).onLine l fun ln => { ln with counters := ⟨0, 0, 0, 0, 0, 0, 0, 0, 0, 0⟩ })))

/-- R131, R21, R123, R115, R6, R10, R127, R65, R88: RESET_LINE waits for a character in the shift path (the way it
waits is the model's, assumption 7). Otherwise it is answered OK after its steps: in ACTIVE the exchange is cut off and
the scan ends LINE_RESET, in TEST the test ends ABORTED. Then the line port goes to its beginning in mode OFF with the
driver released, but for one that a character left by RESTART still holds, which keeps it until that character completes
(the model's choice, assumption 9); the configuration is kept. Each station in another state than DISABLED whose current
line it is enters PROBING in ascending number: its transmitted records complete RESYNC, a pending disable is cleared and
its notice is set, cause LINE_RESET. Last the line's notice is set. A station of the other line keeps its entry. -/
def Obligations.ResetLineProbesItsStations : Prop :=
  ∀ (s : State) (r : Request) (rest : List Request) (line : Byte), Handed s r rest → TagsDistinct s →
    r.body = [0x42#8, line] →
    (1 < line.toNat → exec .resetLine s = .next (refusedWith r rest .badParameter s))
    ∧ ∀ l : LineId, (l = .a ∧ line = 0 ∨ l = .b ∧ line = 1) →
      ((s.line l).transmitting = true →
        exec .resetLine s =
          .next { (headTaken rest s).onLine l fun ln => { ln with ending := some .lineReset } with
            link := { s.link with intake := rest, held := some r } })
      ∧ ∀ ended : State, (s.line l).transmitting = false →
          ((s.line l).mode = .active ∧ ended = scanEnded l .lineReset (cutOff l s)
            ∨ (∃ t, (s.line l).mode = .test ∧ (s.line l).test = some t ∧ ended = testEnded l t .aborted s)
            ∨ ((s.line l).mode = .off ∨ (s.line l).mode = .monitor) ∧ ended = s) →
          let resets (n : Nat) := (ended.station n).any fun e => e.current == l && e.state != .disabled
          let released := (List.range 48).flatMap fun n =>
            if resets n then ended.pool.records.filter fun q => q.station == some n && q.transmitted else []
          ∃ u, exec .resetLine s = .next (answered r .ok [] (headTaken rest u))
            ∧ (∀ n, u.station n =
                if resets n then
                  (ended.station n).map fun e =>
                    noticed
                      { e with
                        state := .probing, probeTimer := some 0, failures := 0, busyStreak := 0, pollDue := false
                        pollTimer := none, holdoffTimer := none, pendingDisable := false }
                      .lineReset
                else ended.station n)
            ∧ u.line l =
                lineNoticed
                  { ended.line l with
                    assembler := none, stuck := false, awaitsMark := false, counters := ⟨0, 0, 0, 0, 0, 0, 0, 0, 0, 0⟩
                    mode := .off, driver := (ended.line l).driver && (ended.line l).afterRestart.isSome, walk := none
                    commandCount := 0, scanCount := 0
                    probeList := ((ended.line l).probeList.filter fun n => !resets n) ++ (List.range 48).filter resets }
                  .lineReset
            ∧ u.line l.other =
                { ended.line l.other with probeList := (ended.line l.other).probeList.filter fun n => !resets n }
            ∧ u.pool = (recordsDone released .resync ended).pool ∧ u.queue = (recordsDone released .resync ended).queue
            ∧ u.link = s.link ∧ u.outputs = s.outputs ∧ u.pending = s.pending ∧ u.inReset = s.inReset
            ∧ u.freeCount = s.freeCount

/-- R134, R138, R139, R151, R70: START_SCAN is refused BAD_PARAMETER, LINE_BUSY, LINE_MODE, NO_REPORT_SPACE by its
checks in order, and otherwise answered ACCEPTED with a reservation granted, the scan record filled in and the scan
interleave count 0. CANCEL_SCAN is refused NO_SCAN when none runs, and otherwise ends the scan CANCELLED.
START_LINE_TEST is checked likewise, in mode OFF, and puts the line in TEST with its first frame in SENDING and its
notice set. (Where a character left by RESTART still completes, the test is accepted at once all the same, and the
driver, if that character holds it, stays asserted into TEST until its release: the model's choice, assumption 9.) -/
def Obligations.ScansAndTestsStart : Prop :=
  ∀ (s : State) (r : Request) (rest : List Request) (line b c : Byte), Handed s r rest →
    let noSpace := 128 ≤ s.queue.entries.length + s.queue.reservations
    let granted : State := { headTaken rest s with queue := { s.queue with reservations := s.queue.reservations + 1 } }
    (r.body = [0x43#8, line, b, c] →
      exec .startScan s =
        .next
          (lineRequest r rest line s fun l =>
            if ¬(1 ≤ b.toNat ∧ b.toNat ≤ c.toNat ∧ c.toNat ≤ 250 ∧ c.toNat - b.toNat < 32) then
              refusedWith r rest .badParameter s
            else if (s.line l).scan.isSome ∨ (s.line l).test.isSome then refusedWith r rest .lineBusy s
            else if (s.line l).mode ≠ .active ∨ (s.line l).stuck then refusedWith r rest .lineMode s
            else if noSpace then refusedWith r rest .noReportSpace s
            else
              answered r .accepted []
                (granted.onLine l fun ln =>
                  { ln with
                    scan := some { first := b.toNat, last := c.toNat, next := b.toNat, responders := [], rollCall := false }
                    scanCount := 0 })))
    ∧ (r.body = [0x44#8, line] →
      exec .cancelScan s =
        .next
          (lineRequest r rest line s fun l =>
            match (s.line l).scan with
            | none => refusedWith r rest .noScan s
            | some sc =>
              answered r .ok []
                (converted (.scanDone l .cancelled sc.responders)
                  ((headTaken rest s).onLine l fun ln => { ln with scan := none }))))
    ∧ (r.body = [0x45#8, line, b] →
      exec .startLineTest s =
        .next
          (lineRequest r rest line s fun l =>
            if b = 0 then refusedWith r rest .badParameter s
            else if (s.line l).scan.isSome ∨ (s.line l).test.isSome then refusedWith r rest .lineBusy s
            else if (s.line l).mode ≠ .off then refusedWith r rest .lineMode s
            else if noSpace then refusedWith r rest .noReportSpace s
            else
              answered r .accepted []
                (granted.onLine l fun ln =>
                  lineNoticed
                    { ln with
                      mode := .test
                      awaitsMark := false
                      test :=
                        some
                          { count := b.toNat, index := 0, framesSent := 0, framesMatched := 0, firstMismatch := none
                            phase := .sending, charsSent := 0, delivered := false, handed := none, timer := none } }
                    .testStarted)))

/-- R142, R186: READ_LINE_STATUS is refused BAD_PARAMETER for a line or view out of range. View 0 answers with 54
bytes in the order of R186: mode, STUCK, notice, configuration, counters, the scheduler's counts, the exchange, the
order list's length and the work running. While no exchange is in flight its target and attempt bytes are free: the
model's choice, assumption 4. View 1 answers with the poll ring's map and the probe list. -/
def Obligations.ReadLineStatusReturnsTheLine : Prop :=
  ∀ (s : State) (r : Request) (rest : List Request) (line view : Byte), Handed s r rest →
    r.body = [0x46#8, line, view] →
    (1 < line.toNat ∨ 1 < view.toNat → exec .readLineStatus s = .next (refusedWith r rest .badParameter s))
    ∧ ∀ l : LineId, (l = .a ∧ line = 0 ∨ l = .b ∧ line = 1) →
      let ln := s.line l
      let c := ln.config
      let k := ln.counters
      let bit (b : Bool) (i : Nat) := if b then 2 ^ i else 0
      let work : List Byte :=
        match ln.scan, ln.test with
        | some sc, _ =>
          let found (i : Nat) := ((List.range 8).map fun j => bit (sc.responders.contains (sc.first + 8 * i + j)) j).sum
          [1, b8 sc.first, b8 sc.last, b8 (if sc.last < sc.next then 0 else sc.next)]
            ++ (List.range 4).map fun i => b8 (found i)
        | none, some t =>
          [2, b8 t.count, b8 t.index, b8 t.framesSent, b8 t.framesMatched, b8 (t.firstMismatch.getD 0xFF), 0, 0]
        | none, none => [0, 0, 0, 0, 0, 0, 0, 0]
      let view0 (exchange : List Byte) : List Byte :=
        [line, 0, b8 ln.mode.code, b8 (bit ln.stuck 0 + bit ln.notice 1), b8 (lineCauseCode ln.noticeCause),
            b8 c.rate.code, b8 c.stopBits, b8 c.replyStart, b8 c.intercharacter, b8 c.lineGap]
          ++ le16 c.probeInterval ++ le16 c.busyHoldoff ++ [b8 c.busyLimit, b8 c.commandStreak, b8 c.scanStreak]
          ++ le16 k.framesSent ++ le16 k.goodFrames ++ le16 k.checkErrors ++ le16 k.framingErrors ++ le16 k.glitches
          ++ le16 k.abandonedFrames ++ le16 k.strayCharacters ++ le16 k.stuckEvents ++ le16 k.capturesLost
          ++ le16 k.attemptsFailed ++ [b8 (ln.walk.getD 0xFF), b8 ln.commandCount, b8 ln.scanCount] ++ exchange
          ++ [b8 (s.pool.records.filter fun q => q.state == .queued && q.line == l).length] ++ work
      let ring (i : Nat) := ((List.range 8).map fun j =>
        bit ((s.station (8 * i + j)).any fun e => (e.state == .online || e.state == .suspect) && e.current == l) j).sum
      (∀ x : Exchange, view = 0 → ln.exchange = some x → (∀ sc, ln.scan = some sc → sc.responders.Nodup
          ∧ ∀ a ∈ sc.responders, sc.first ≤ a ∧ a < sc.first + 32) →
        exec .readLineStatus s =
          .next (answered r .ok
            (view0 [b8 (phaseCode (some x.phase)), b8 x.kind.code, b8 (x.station.getD 0xFF), b8 x.target, b8 x.attempt])
            (headTaken rest s)))
      ∧ (view = 0 → ln.exchange = none → (∀ sc, ln.scan = some sc → sc.responders.Nodup
          ∧ ∀ a ∈ sc.responders, sc.first ≤ a ∧ a < sc.first + 32) →
        ∃ target attempt : Byte,
          exec .readLineStatus s =
            .next (answered r .ok (view0 [0, 0, 0xFF, target, attempt])
              { headTaken rest s with freeCount := s.freeCount + 2 }))
      ∧ (view = 1 →
        exec .readLineStatus s =
          .next (answered r .ok
            ([line, 1] ++ ((List.range 6).map fun i => b8 (ring i)) ++ [b8 ln.probeList.length] ++ ln.probeList.map b8)
            (headTaken rest s)))

/-! ### Discrete outputs -/

/-- R144: SET_OUTPUTS and CLEAR_OUTPUTS are refused BAD_PARAMETER for a mask above 15, and otherwise write the latches
whose mask bit is 1. ASSIGN_OUTPUT is refused BAD_PARAMETER for an index above 3 or a function not among the five, and
otherwise gives the output its function, whose value its pin takes at once, its latch kept. -/
def Obligations.OutputRequestsWriteLatchesAndFunctions : Prop :=
  ∀ (s : State) (r : Request) (rest : List Request) (b c : Byte), Handed s r rest →
    (15 < b.toNat → r.body = [0x50#8, b] → exec .setOutputs s = .next (refusedWith r rest .badParameter s))
    ∧ (15 < b.toNat → r.body = [0x51#8, b] → exec .clearOutputs s = .next (refusedWith r rest .badParameter s))
    ∧ (b.toNat ≤ 15 → r.body = [0x50#8, b] →
        ∃ o, exec .setOutputs s = .next (answered r .ok [] { headTaken rest s with outputs := o })
          ∧ ∀ i (h : i < 4), o[i] = if b.getLsbD i then { s.outputs[i] with latch := true } else s.outputs[i])
    ∧ (b.toNat ≤ 15 → r.body = [0x51#8, b] →
        ∃ o, exec .clearOutputs s = .next (answered r .ok [] { headTaken rest s with outputs := o })
          ∧ ∀ i (h : i < 4), o[i] = if b.getLsbD i then { s.outputs[i] with latch := false } else s.outputs[i])
    ∧ (3 < b.toNat ∨ 4 < c.toNat → r.body = [0x52#8, b, c] →
        exec .assignOutput s = .next (refusedWith r rest .badParameter s))
    ∧ (∀ (hb : b.toNat < 4) (hc : c.toNat < 5), r.body = [0x52#8, b, c] →
        let functions : List OutputFunction := [.latch, .stuckA, .stuckB, .sessionStalled, .reportsUnsent]
        let values : List Bool :=
          [s.outputs[b.toNat].latch, s.lineA.stuck, s.lineB.stuck, s.link.session.state == .stalled,
            s.queue.entries.any (!·.sent)]
        ∃ t : State, exec .assignOutput s = .next t
          ∧ (∃ o, t = answered r .ok [] { headTaken rest s with outputs := o })
          ∧ (∀ i (h : i < 4), i ≠ b.toNat → t.outputs[i] = s.outputs[i])
          ∧ t.outputs[b.toNat] = { s.outputs[b.toNat] with function := functions[c.toNat] }
          ∧ t.pin t.outputs[b.toNat] = values[c.toNat])

/-! ### The host transmitter -/

/-- R177, R173, R149, R178, R163, R187, R182: with CTS low and no frame in progress the transmitter starts the oldest
response; with no response waiting, in OPEN, the entry at a run's position, which then moves on to the next sent entry
or ends, or, with no run and fewer sent entries than the window, the oldest unsent entry; with none of these a waiting
HELLO. A started entry is marked sent, and its REPORT frame carries its sequence number, the code of its kind and the
contents that the kind has, each field in its place. CTS_FALL first makes CTS low and takes in the choice (the model's
reading, assumption 6). With CTS high or a frame in progress nothing starts. R162, R40: HTXD carries the frame in
progress, its characters back to back, each a start bit at space, the data bits least significant first and a stop bit
at mark, ten bit times in all; after its last character, and with no frame in progress, HTXD is at mark. -/
def Obligations.HostFramesStartInTheirOrder : Prop :=
  let bit (b : Bool) (i : Nat) := if b then 2 ^ i else 0
  let line : LineId → Byte
    | .a => 0
    | .b => 1
  let contents : Report → List Byte
    | .stationData n data => 1 :: b8 n :: b8 data.length :: data
    | .commandDone tag station outcome transmitted attempts failure reply =>
      [2, lowByte tag, highByte tag, b8 (station.getD 0xFF), b8 outcome.code, if transmitted then 1 else 0, b8 attempts,
        b8 (failureCode failure), b8 reply.length] ++ reply
    | .stationState n state current changes cause =>
      [3, b8 n, b8 state.code, line current, b8 changes, b8 (stationCauseCode cause)]
    | .lineState l mode stuck cause => [4, line l, b8 mode.code, if stuck then 1 else 0, b8 (lineCauseCode cause)]
    | .scanDone l status responders => [5, line l, b8 status.code, b8 responders.length] ++ responders.map b8
    | .testDone l status sent matched mismatch =>
      [6, line l, b8 status.code, b8 sent, b8 matched, b8 (mismatch.getD 0xFF)]
    | .capture l address kind toggle length payload framing check abandoned =>
      [7, line l, address,
        b8 (bit framing 0 + bit check 1 + bit abandoned 2 + bit kind.isSome 3 + bit toggle.isSome 4 + bit length.isSome 5),
        b8 (kind.getD 0), if toggle = some true then 1 else 0, b8 (length.getD 0), b8 payload.length] ++ payload
  (∀ (s : State) (bitTime : Nat),
    (s.link.sending = none → s.link.txPin bitTime = true)
    ∧ ∀ f, s.link.sending = some f →
      (10 * f.bytes.length ≤ bitTime → s.link.txPin bitTime = true)
      ∧ ∀ byte, f.bytes[bitTime / 10]? = some byte →
        s.link.txPin bitTime =
          (false :: ((List.range 8).map fun i => byte.getLsbD i) ++ [true]).getD (bitTime % 10) true)
  ∧ (∀ s : State, s.link.ctsLow = false ∨ s.link.sending.isSome → exec .hostTransmitStart s = .next s)
  ∧ (∀ s : State, s.link.sending.isSome →
      exec .ctsFall s = .next { s with link := { s.link with ctsLow := true } })
  ∧ ∀ (s : State) (c : Instr), (c = .hostTransmitStart ∧ s.link.ctsLow = true) ∨ c = .ctsFall → s.link.sending = none →
    let low : Link := { s.link with ctsLow := true }
    (∀ q more, s.link.responses = q :: more →
      exec c s =
        .next { s with link := { low with
          responses := more
          sending := some
            { kind := if q.restarts then .restartResponse else .response
              bytes := hostFrame 0x81#8 q.number q.body } } })
    ∧ (∀ old e new p, s.link.responses = [] → s.link.session.state = .opened → (s.queue.entries.map (·.seq)).Nodup →
        s.queue.entries = old ++ e :: new → s.link.session.run = some p → e.seq = p →
        exec c s =
          .next { s with
            queue := { s.queue with entries := old ++ { e with sent := true } :: new }
            link := { low with
              session := { s.link.session with
                run := match new with
                  | [] => none
                  | f :: _ => if f.sent then some f.seq else none }
              sending := some ⟨.report, hostFrame 0x82#8 0 (lowByte e.seq :: highByte e.seq :: contents e.report)⟩ } })
    ∧ (∀ old e new, s.link.responses = [] → s.link.session.state = .opened → (s.queue.entries.map (·.seq)).Nodup →
        s.queue.entries = old ++ e :: new → s.link.session.run = none → (∀ x ∈ old, x.sent = true) → e.sent = false →
        (s.queue.entries.filter (·.sent)).length < s.link.session.window →
        exec c s =
          .next { s with
            queue := { s.queue with entries := old ++ { e with sent := true } :: new }
            link := { low with
              sending := some ⟨.report, hostFrame 0x82#8 0 (lowByte e.seq :: highByte e.seq :: contents e.report)⟩ } })
    ∧ (s.link.responses = [] →
        s.link.session.state ≠ .opened
          ∨ (s.link.session.run = none
              ∧ ((∀ x ∈ s.queue.entries, x.sent = true)
                  ∨ s.link.session.window ≤ (s.queue.entries.filter (·.sent)).length)) →
        exec c s =
          .next { s with link :=
            if s.link.helloWaiting then
              { low with
                helloWaiting := false
                sending := some
                  ⟨.hello, hostFrame 0x83#8 0 [match s.link.helloCause with
                    | .powerOn => 1
                    | .restart => 2, 1]⟩ }
            else low })

/-- R177, R175: when the last byte of a frame that is not RESTART's response leaves, the next frame is chosen; after a
report frame the acknowledgement timer is first started afresh, if the session is OPEN and sent entries exist. CTS_RISE
makes CTS high and leaves a frame in progress as it is. R175, R178: when the acknowledgement timer expires in OPEN, the
retransmission count rises and a resend run begins at the head, and the timer is stopped; at the sixth expiry in a row
the session enters STALLED and stalls rises. When the HELLO timer expires with repetition active in CLOSED, HELLO is set
waiting and the timer started again with 1000 ms; otherwise it stops. (The model's readings: that one row takes in the
end of a frame and the next frame's choice, assumption 6; that no run is left on entry into STALLED, assumption 15; and
that a repeated HELLO keeps the cause of the last start, assumption 17. The model's choices: that HOST_FRAME_END with no
frame in progress changes nothing, assumption 3; and that a running timer is taken to expire whatever time it has left,
assumption 20.) -/
def Obligations.HostFramesEndAndLinkTimersExpire : Prop :=
  (∀ s : State,
      exec .ctsRise s = .next { s with link := { s.link with ctsLow := false } }
      ∧ (s.link.sending = none → exec .hostFrameEnd s = .next s)
      ∧ (∀ f : HostFrame, s.link.sending = some f → f.kind = .response ∨ f.kind = .hello → s.link.ctsLow = false →
          exec .hostFrameEnd s = .next { s with link := { s.link with sending := none } })
      ∧ ∀ f : HostFrame, s.link.sending = some f →
          (f.kind = .response ∨ f.kind = .hello →
            exec .hostFrameEnd s = exec .hostTransmitStart { s with link := { s.link with sending := none } })
          ∧ (f.kind = .report →
            exec .hostFrameEnd s =
              exec .hostTransmitStart { s with link := { s.link with
                sending := none
                session := { s.link.session with
                  ackTimer :=
                    if s.link.session.state = .opened ∧ ∃ e ∈ s.queue.entries, e.sent = true then
                      some s.link.session.timeout
                    else s.link.session.ackTimer } } }))
  ∧ (∀ s : State,
      (s.link.session.state = .opened → s.link.session.ackTimer.isSome → s.link.session.retransmissions < 5 →
        exec .ackTimerExpiry s =
          .next { s with link := { s.link with
            session := { s.link.session with
              retransmissions := s.link.session.retransmissions + 1
              ackTimer := none
              run := s.queue.entries.head?.map (·.seq) }
            counters := { s.link.counters with
              retransmissionRuns := min (s.link.counters.retransmissionRuns + 1) 65535 } } })
      ∧ (s.link.session.state = .opened → s.link.session.ackTimer.isSome → s.link.session.retransmissions = 5 →
        exec .ackTimerExpiry s =
          .next { s with link := { s.link with
            session := { s.link.session with state := .stalled, retransmissions := 6, ackTimer := none, run := none }
            counters := { s.link.counters with stalls := min (s.link.counters.stalls + 1) 65535 } } })
      ∧ (s.link.helloTimer.isSome →
        exec .helloTimerExpiry s =
          .next { s with link :=
            if s.link.helloRepeat = true ∧ s.link.session.state = .closed then
              { s.link with helloWaiting := true, helloTimer := some 1000 }
            else { s.link with helloTimer := none } }))

/-! ### The scheduler's choice -/

/-- R83, R75, R76, R77, R84, R86, R117, R42, R43, R24, R33: on a free line with no scan and no command to take, or with
the command streak reached, a poll of the first eligible station of the walk is taken: a reservation is granted, the
due mark cleared, the poll timer stopped, the walk position moved, and a POLL frame with the station's toggle started;
with no such station and no command a probe of the first station of the probe list whose probe timer has reached 0,
which starts the timer with the probe interval, makes the toggle 0 and starts a PROBE frame. Both need a free unreserved
slot: without one, and with no command to take, nothing is chosen. -/
def Obligations.PollsAndProbesAreTaken : Prop :=
  ∀ (s : State) (l : LineId),
    (s.line l).mode = .active → (s.line l).stuck = false → (s.line l).exchange = none → (s.line l).ending = none →
    (s.line l).scan = none →
    let noCommand := ∀ q ∈ s.pool.records, q.state = .queued → q.line = l → recordEligible s q = false
    (noCommand → 128 ≤ s.queue.entries.length + s.queue.reservations → exec (.schedulerChoice l) s = .next s)
    ∧ ∀ (n : Nat) (e : Station),
      s.queue.entries.length + s.queue.reservations < 128 → s.station n = some e → e.pendingDisable = false →
      let place (m : Nat) := ((m : Int) - (s.line l).walk.elim 0 (fun w => (w : Int) + 1)) % 48
      let started (kind : ExchangeKind) (control : Byte) (toggle : Bool) : Exchange :=
        { kind, station := some n, target := e.address, record := none, holdsReservation := true, attempt := 1
          toggleSent := toggle, phase := .transmit, charsSent := 0, lastFailure := none, outcome := none
          frame := lineFrame e.address control [], timer := none }
      (noCommand ∨ (s.line l).config.commandStreak ≤ (s.line l).commandCount →
        (e.state = .online ∨ e.state = .suspect) → e.current = l → e.pollDue = true → e.holdoffTimer = none →
        (∀ m, m < 48 → place m < place n → pollEligible s l m = false) →
        exec (.schedulerChoice l) s =
          .next
            ((({ s with queue := { s.queue with reservations := s.queue.reservations + 1 } } : State).setStation n
              (some { e with pollDue := false, pollTimer := none })).onLine l fun ln =>
                { ln with
                  walk := some n, commandCount := 0, scanCount := 0, driver := true
                  exchange := some (started .poll (if e.toggle then 0x11#8 else 0x01#8) e.toggle) }))
      ∧ (∀ before after, noCommand → (s.line l).probeList = before ++ n :: after → e.probeTimer = some 0 →
        (∀ m ∈ before, ∀ f, s.station m = some f → f.probeTimer ≠ some 0 ∨ f.pendingDisable = true) →
        (∀ m, m < 48 → pollEligible s l m = false) →
        exec (.schedulerChoice l) s =
          .next
            ((({ s with queue := { s.queue with reservations := s.queue.reservations + 1 } } : State).setStation n
              (some
                { e with
                  probeTimer := some (s.line l).config.probeInterval
                  toggle := false
                  counters := { e.counters with probesSent := min (e.counters.probesSent + 1) 65535 } })).onLine l
                    fun ln =>
                      { ln with
                        commandCount := 0, scanCount := 0, driver := true
                        exchange := some (started .probe 0x23#8 false) }))

/-- R74, R75, R70, R72, R42, R97, R43: on a free line with no scan, the first eligible record of the order list is
taken while fewer commands in a row than the command streak have been, or no poll is startable: a broadcast as a
BROADCAST to address 0, a command as a COMMAND to its station with the station's toggle. The record becomes IN_FLIGHT
with one attempt more and no failure. -/
def Obligations.CommandsAndBroadcastsAreTaken : Prop :=
  ∀ (s : State) (l : LineId) (before after : List CommandRecord) (q : CommandRecord),
    (s.line l).mode = .active → (s.line l).stuck = false → (s.line l).exchange = none → (s.line l).ending = none →
    (s.line l).scan = none → TagsDistinct s →
    (s.pool.records.filter fun c => c.state == .queued && c.line == l) = before ++ q :: after →
    (∀ c ∈ before, recordEligible s c = false) →
    (s.line l).commandCount < (s.line l).config.commandStreak ∨ (∀ m, m < 48 → pollEligible s l m = false)
      ∨ 128 ≤ s.queue.entries.length + s.queue.reservations →
    let taken (kind : ExchangeKind) (target : Nat) (control : Byte) (toggle : Bool) : State :=
      { (s.onLine l fun ln =>
          { ln with
            commandCount := min (ln.commandCount + 1) ln.config.commandStreak, scanCount := 0, driver := true
            exchange := some
              { kind, station := q.station, target, record := some q.tag, holdsReservation := false, attempt := 1
                toggleSent := toggle, phase := .transmit, charsSent := 0, lastFailure := none, outcome := none
                frame := lineFrame target control q.payload, timer := none } }) with
        pool := { s.pool with
          records := s.pool.records.map fun c =>
            if c.tag = q.tag then { c with state := .inFlight, lastFailure := none, attempts := min (c.attempts + 1) 255 }
            else c } }
    (q.station = none → exec (.schedulerChoice l) s = .next (taken .broadcast 0 0x04#8 false))
    ∧ (∀ n e, q.station = some n → s.station n = some e → (e.state = .online ∨ e.state = .suspect) →
        e.holdoffTimer = none → e.pendingDisable = false →
        (∀ c ∈ s.pool.records.takeWhile (·.tag != q.tag), c.station ≠ some n) →
        exec (.schedulerChoice l) s =
          .next (taken .command e.address (if e.toggle then 0x12#8 else 0x02#8) e.toggle))

/-- R73, R135, R136, R70, R72, R42: on a free line with a scan, the lowest remaining address that no defined station
claims on the line is named and the addresses below it are passed. Below the scan streak, and at it when no command,
poll or probe is startable, the address is consumed and a ROLL_CALL to it started; at the scan streak with one of them
startable the choice is the one it would be without the scan, which keeps the address (that the claimed addresses below
it stay passed although the scan does not yield is the model's reading, assumption 12). With every remaining address
claimed the scan ends COMPLETE and the choice goes on without it. A line that is not free chooses nothing. -/
def Obligations.ScansTakeTheLine : Prop :=
  ∀ (s : State) (l : LineId),
    let claimed (a : Nat) := ∃ n e, s.station n = some e ∧ e.address = a ∧ (e.home = l ∨ e.alternate = some l)
    ((s.line l).mode ≠ .active ∨ (s.line l).stuck = true ∨ (s.line l).exchange.isSome →
      exec (.schedulerChoice l) s = .next s)
    ∧ ∀ sc : Scan, (s.line l).mode = .active → (s.line l).stuck = false → (s.line l).exchange = none →
      (s.line l).ending = none → (s.line l).scan = some sc →
      let startable :=
        (∃ q ∈ s.pool.records, q.state = .queued ∧ q.line = l ∧ recordEligible s q = true)
          ∨ s.queue.entries.length + s.queue.reservations < 128
            ∧ ((∃ m, m < 48 ∧ pollEligible s l m = true) ∨ ∃ m ∈ (s.line l).probeList, probeEligible s m = true)
      (∀ a, sc.next ≤ a → a ≤ sc.last → ¬claimed a → (∀ b, sc.next ≤ b → b < a → claimed b) →
        (s.line l).config.scanStreak ≤ (s.line l).scanCount → startable →
        ∃ u, exec (.schedulerChoice l) (s.onLine l fun ln => { ln with scan := none }) = .next u
          ∧ exec (.schedulerChoice l) s =
              .next (u.onLine l fun ln => { ln with scan := some { sc with next := a } }))
      ∧ (∀ a, sc.next ≤ a → a ≤ sc.last → ¬claimed a → (∀ b, sc.next ≤ b → b < a → claimed b) →
        (s.line l).scanCount < (s.line l).config.scanStreak ∨ ¬startable →
        exec (.schedulerChoice l) s =
          .next
            (s.onLine l fun ln =>
              { ln with
                scan := some { sc with next := a + 1, rollCall := true }
                scanCount := min (ln.scanCount + 1) ln.config.scanStreak
                commandCount := 0
                driver := true
                exchange := some
                  { kind := .rollCall, station := none, target := a, record := none, holdsReservation := false
                    attempt := 1, toggleSent := false, phase := .transmit, charsSent := 0, lastFailure := none
                    outcome := none, frame := lineFrame a 0x05#8 [], timer := none } }))
      ∧ ((∀ a, sc.next ≤ a → a ≤ sc.last → claimed a) →
          exec (.schedulerChoice l) s = exec (.schedulerChoice l) (scanEnded l .complete s))

/-! ### Frames on the line -/

/-- R44, R22, R23, R59, R97, R99: in TRANSMIT the transmit pin carries the character in the shift path: a start bit at
space, the data bits least significant first, the address mark, which is 1 in the first character alone, and the
configured stop bits at mark. A character other than its frame's last raises characters sent and nothing else. With the
last one of a POLL, PROBE or ROLL_CALL the line's frames sent rises and GUARD begins; a COMMAND's record also gets its
transmitted flag; a BROADCAST's record completes SENT and the exchange is decided. -/
def Obligations.CharactersAndFramesLeave : Prop :=
  ∀ (s : State) (l : LineId) (x : Exchange), (s.line l).ending = none → (s.line l).exchange = some x →
    x.phase = .transmit →
    let left (y : Exchange) : State :=
      s.onLine l fun ln =>
        { ln with
          counters := { ln.counters with framesSent := min (ln.counters.framesSent + 1) 65535 }
          exchange := some { y with phase := .guard, charsSent := x.frame.length } }
    (∀ byte bitTime, x.frame[x.charsSent]? = some byte →
      (s.line l).txPin bitTime =
        (false :: ((List.range 8).map fun i => byte.getLsbD i) ++ (x.charsSent == 0)
          :: List.replicate (s.line l).config.stopBits true).getD bitTime true)
    ∧ (x.charsSent + 1 < x.frame.length →
      exec (.characterSent l) s =
        .next (s.onLine l fun ln => { ln with exchange := some { x with charsSent := x.charsSent + 1 } }))
    ∧ (x.charsSent + 1 = x.frame.length → x.kind ≠ .broadcast → x.record = none →
        exec (.frameSent l) s = .next (left x))
    ∧ (∀ tag, x.charsSent + 1 = x.frame.length → x.kind = .command → x.record = some tag →
        exec (.frameSent l) s =
          .next { left x with
            pool := { s.pool with
              records := s.pool.records.map fun c => if c.tag = tag then { c with transmitted := true } else c } })
    ∧ (∀ tag q, x.charsSent + 1 = x.frame.length → x.kind = .broadcast → x.record = some tag → TagsDistinct s →
        q ∈ s.pool.records → q.tag = tag → q.station = none →
        exec (.frameSent l) s =
          .next
            (recordDone { q with transmitted := true } .sent []
              (left { x with outcome := some .sent, record := none, holdsReservation := false })))

/-- R45, R24, R48, R25, R26, R23, R22: at the end of GUARD the driver is released and the receiver enabled, which waits
for mark where its input is at space, and the engine enters AWAIT with the reply-start timer started, or, for a
BROADCAST, GAP with the gap timer started. A character that completes after RESTART stands on the transmit pin, or, of a
line test, on the internal loop; when it completes, its driver is released, which enables the receiver of a line by then
in ACTIVE, and nothing else changes (the model's choice, assumption 9). While no character of an exchange is sent the
transmit pin is at mark, in every mode. -/
def Obligations.GuardAndRestartReleaseTheDriver : Prop :=
  ∀ (s : State) (l : LineId),
    (∀ x, (s.line l).exchange = some x → x.phase = .guard → x.kind ≠ .broadcast →
      exec (.guardEnd l) s =
        .next (s.onLine l fun ln =>
          { ln with
            driver := false, awaitsMark := !ln.rxMark
            exchange := some { x with phase := .await, timer := some ln.config.replyStart } }))
    ∧ (∀ x, (s.line l).exchange = some x → x.phase = .guard → x.kind = .broadcast → (s.line l).assembler = none →
      exec (.guardEnd l) s =
        .next (s.onLine l fun ln =>
          { ln with
            driver := false, awaitsMark := !ln.rxMark
            exchange := some { x with phase := .gap, timer := some ln.config.lineGap } }))
    ∧ (∀ c looped, (s.line l).ending = some (.restart c looped) →
      let levels (bitTime : Nat) :=
        (false :: ((List.range 8).map fun i => c.byte.getLsbD i) ++ c.addressMark
          :: List.replicate (s.line l).config.stopBits true).getD bitTime true
      exec (.driverRelease l) s =
          .next (s.onLine l fun ln =>
            { ln with
              driver := false, ending := none
              awaitsMark := if ln.mode = .active ∧ ln.driver = true then !ln.rxMark else ln.awaitsMark })
        ∧ ∀ bitTime, (s.line l).txPin bitTime = (looped || levels bitTime)
          ∧ (s.line l).loopLevel bitTime = (!looped || levels bitTime))
    ∧ (∀ bitTime, (∀ x, (s.line l).exchange = some x → x.phase ≠ .transmit) → (s.line l).afterRestart = none →
      (s.line l).txPin bitTime = true)

/-- R25, R44, R65, R131, R140, R141: when the character completes for which a mode change or line reset waits, it counts
as a character sent, the driver is released, and the request held goes on as if it were taken now. Of an exchange: if
the character was its frame's last, the frame has left the line port as at FRAME_SENT (frames sent rises, a record's
transmitted flag is set, a BROADCAST is SENT); then comes what SET_LINE_MODE or RESET_LINE does to an exchange that is
no longer sending. Of a line test: if the character was its frame's last, frames sent rises, of the line and of the
test; then comes what they do to a test that is no longer sending; a character that the receiver has not taken from the
loop is first taken as the row does that its levels name. The model's way (assumption 7) to let the request wait. -/
def Obligations.HeldRequestsGoOn : Prop :=
  ∀ (s : State) (l : LineId) (r : Request) (rest : List Request) (body : List Byte) (line mode : Byte),
    (l = .a ∧ line = 0 ∨ l = .b ∧ line = 1) → s.link.held = some r → s.link.intake = rest →
    s.link.responses.length < 8 → s.link.restartWaiting = false → s.link.session.state ≠ .closed →
    let goesOn (sent : State) : Prop :=
      let again (body : List Byte) : State :=
        { (sent.onLine l fun ln => { ln with driver := false, ending := none }) with
          link := { s.link with intake := { r with body } :: rest, held := none } }
      (∀ m, (m = LineMode.off ∧ mode = 0 ∨ m = .monitor ∧ mode = 2
            ∨ (s.line l).mode = .test ∧ m = .active ∧ mode = 1) →
          (s.line l).ending = some (.modeChange m) → body = [0x40#8, line, mode] →
          exec (.driverRelease l) s = exec .setLineMode (again body))
        ∧ ((s.line l).ending = some .lineReset → body = [0x42#8, line] →
          exec (.driverRelease l) s = exec .resetLine (again body))
    (∀ x : Exchange, (s.line l).exchange = some x → x.phase = .transmit → (s.line l).mode = .active →
      x.charsSent + 1 ≤ x.frame.length →
      ∃ sent,
        exec (if x.charsSent + 1 = x.frame.length then .frameSent l else .characterSent l)
            (s.onLine l fun ln => { ln with ending := none }) = .next sent
          ∧ goesOn (sent.onLine l fun ln =>
              { ln with exchange := ln.exchange.map fun y => { y with phase := .guard } }))
    ∧ ∀ t : LineTest, (s.line l).exchange = none → (s.line l).test = some t → (s.line l).mode = .test →
      t.phase = .sending → t.charsSent ≤ 36 →
      (t.delivered = true →
        goesOn (s.onLine l fun ln =>
          if t.charsSent = 36 then
            { ln with
              counters := { ln.counters with framesSent := min (ln.counters.framesSent + 1) 65535 }
              test := some { t with phase := .awaiting, charsSent := 37, framesSent := t.framesSent + 1 } }
          else { ln with test := some { t with phase := .awaiting, charsSent := t.charsSent + 1 } }))
      ∧ (t.delivered = false → (s.line l).ending = some .lineReset ∨ (∃ m, (s.line l).ending = some (.modeChange m)) →
        ∃ row u handed,
          (s.line l).receipt l ((List.range 10).map fun i => (s.line l).loopLevel (i + 1)) = some row
            ∧ exec row s = .next u ∧ u.link = s.link
            ∧ (u.line l).test = some { t with delivered := true, handed }
            ∧ exec (.driverRelease l) s = exec (.driverRelease l) u)

/-- R49, R50, R31, R32, R33: a reply is judged by six checks in order: FRAMING for the framing flag of whatever was
handed up, TRUNCATED for an abandoned frame, CHECK for a complete frame whose last two bytes are not the CRC of those
before them, WRONG_RESPONDER for its address, BAD_KIND for a kind unknown or not allowed, TOGGLE for a toggle other than
the one sent, which CHECK_FAIL and a ROLL_CALL are not held to. -/
def Obligations.RepliesAreJudgedInOrder : Prop :=
  ∀ (kind : ExchangeKind) (target : Nat) (sent : Bool),
    (∀ h : HandedUp, h.framing = true → judge kind target sent h = .fails .framing)
    ∧ (∀ h : HandedUp, h.framing = false → h.abandoned.isSome → judge kind target sent h = .fails .truncated)
    ∧ (∀ (h : HandedUp) (covered crc : List Byte), h.framing = false → h.abandoned = none → h.chars = covered ++ crc →
        covered.length = 3 + (covered.getD 2 0).toNat → crc ≠ [highByte (crc16 covered), lowByte (crc16 covered)] →
        judge kind target sent h = .fails .check)
    ∧ ∀ (address code : Nat) (toggle resync : Bool) (payload : List Byte),
      address < 256 → code < 16 → payload.length ≤ 32 →
      let good : HandedUp := ⟨lineFrame address (controlByte code toggle resync) payload, false, none⟩
      let known : List (Nat × ReplyKind × List ExchangeKind × Nat × Nat) :=
        [(0x8, .data, [.poll, .probe], 1, 32), (0x9, .empty, [.poll, .probe], 0, 0), (0xA, .done, [.command], 0, 32),
          (0xB, .reject, [.command], 0, 32), (0xC, .busy, [.poll, .probe, .command], 0, 0),
          (0xD, .checkFail, [.poll, .probe, .command], 0, 0), (0xE, .present, [.rollCall], 0, 0)]
      let allowed (k : ReplyKind) := ∃ kinds low high, (code, k, kinds, low, high) ∈ known ∧ kind ∈ kinds
        ∧ low ≤ payload.length ∧ payload.length ≤ high
      (address ≠ target → judge kind target sent good = .fails .wrongResponder)
      ∧ (address = target → (∀ k, ¬allowed k) → judge kind target sent good = .fails .badKind)
      ∧ (∀ k, address = target → allowed k → toggle ≠ sent → k ≠ .checkFail → kind ≠ .rollCall →
          judge kind target sent good = .fails .toggle)
      ∧ (∀ k, address = target → allowed k → (toggle = sent ∨ k = .checkFail ∨ kind = .rollCall) →
          judge kind target sent good = .passes k)

/-- R22, R26, R28, R31, R32, R34 to R37, R132, R188: the levels of a line character, 11 bit times with one stop bit and
12 with two, give back at the receiver's samples its byte and address mark without a framing error. A receiver that is
disabled or waits for mark takes no samples; otherwise they name the row of the character: in ACTIVE outside the receive
window it is stray; with address mark 1 it begins a frame; with address mark 0 it is stray in SEEKING, and in COLLECTING
a LENGTH above 32, the frame's last character, or one added. A frame built for any address, kind code, toggle, resync
mark and payload of at most 32 bytes, received character by character on a line in MONITOR that seeks one, is assembled
and captured whole: its last character enqueues the CAPTURE report of exactly that address, kind, toggle, length and
payload, with no mark of error, and good frames rises. Nothing else has changed but that the receiver seeks an edge. The
same comes of the rows that the samples of the frame's characters name. (In TEST a wait for mark plays no part: the
model's choice, assumption 18.) -/
def Obligations.LineFramesAreCapturedWhole : Prop :=
  let ran (c : Instr) (t : State) : Option State :=
    match exec c t with
    | .next u => some u
    | _ => none
  (∀ (c : LineCharacter) (config : LineConfig), config.stopBits = 1 ∨ config.stopBits = 2 →
    (c.levels config.stopBits).length = config.characterBits ∧ config.characterBits = 10 + config.stopBits
      ∧ (c.levels config.stopBits).head? = some false
      ∧ receivedCharacter ((c.levels config.stopBits).drop 1) = (c, false))
  ∧ (∀ (l : LineId) (ln : Line) (byte : Byte) (mark fe : Bool),
    let samples := (List.range 8).map (fun i => byte.getLsbD i) ++ [mark, !fe]
    let deaf := ln.mode = .off ∨ (ln.mode = .active ∧ ln.driver = true) ∨ (ln.mode ≠ .test ∧ ln.awaitsMark = true)
    let closed := ln.mode = .active ∧ ∀ x, ln.exchange = some x → x.phase ≠ .await ∧ x.phase ≠ .receive
    (deaf → ln.receipt l samples = none)
    ∧ (¬deaf → closed → ln.receipt l samples = some (.strayCharacter l byte mark fe))
    ∧ (¬deaf → ¬closed →
      (mark = true → ln.receipt l samples = some (.addressCharacterReceived l byte fe))
      ∧ (mark = false → ln.assembler = none → ln.receipt l samples = some (.strayCharacter l byte false fe))
      ∧ ∀ p, mark = false → ln.assembler = some p →
        ln.receipt l samples =
          some
            (if p.chars.length = 2 ∧ 32 < byte.toNat then .lengthAbandon l byte fe
            else if p.chars.length = 4 + (p.chars.getD 2 0).toNat then .frameReceived l byte fe
            else .frameCharacterReceived l byte fe)))
  ∧ ∀ (s : State) (l : LineId) (address code : Nat) (toggle resync : Bool) (payload front : List Byte) (first last : Byte),
    (s.line l).mode = .monitor → (s.line l).awaitsMark = false → (s.line l).assembler = none →
    (s.line l).exchange = none → address < 256 → code < 16 → payload.length ≤ 32 →
    s.queue.entries.length + s.queue.reservations < 128 →
    let frame := lineFrame address (controlByte code toggle resync) payload
    frame = first :: (front ++ [last]) →
    let captured : State :=
      { (s.onLine l fun ln =>
          { ln with
            awaitsMark := false
            counters := { ln.counters with goodFrames := min (ln.counters.goodFrames + 1) 65535 } }) with
        queue := { s.queue with
          entries := s.queue.entries ++
            [⟨s.queue.seqCounter,
              .capture l (b8 address) (some code) (some toggle) (some payload.length) payload false false false,
              false⟩]
          seqCounter := s.queue.seqCounter + 1 } }
    ran (.addressCharacterReceived l first false) s
        >>= (fun t => front.foldlM (fun t b => ran (.frameCharacterReceived l b false) t) t)
        >>= ran (.frameReceived l last false)
      = some captured
    ∧ ((s.line l).config.stopBits = 1 ∨ (s.line l).config.stopBits = 2 →
      (List.range frame.length).foldlM
          (fun t k =>
            (t.line l).receipt l
                (((⟨frame.getD k 0, k == 0⟩ : LineCharacter).levels (t.line l).config.stopBits).drop 1)
              >>= fun c => ran c t) s
        = some captured)

/-- R46, R53, R54, R60, R61, R48, R97: when the reply-start timer expires in AWAIT, a POLL, PROBE or COMMAND fails
TIMEOUT: the kind enters the exchange, its record, the station's sticky set and last failure, and both attempts-failed
counters, and GAP begins. When the attempts made exceed the retry limit the exchange is decided: a POLL releases its
reservation and starts its poll timer, a PROBE releases its reservation, a COMMAND's record completes FAILED. A
ROLL_CALL is absent and raises no counter; the scan that waits for it goes on, or ends COMPLETE at its last address, and
with no scan, or one that waits for none, the result is discarded (R136). -/
def Obligations.UnansweredAttemptsFail : Prop :=
  ∀ (s : State) (l : LineId) (x : Exchange), (s.line l).exchange = some x → x.phase = .await →
    (s.line l).assembler = none → TagsDistinct s →
    let inGap (y : Exchange) (ln : Line) : Line :=
      { ln with exchange := some { y with phase := .gap, timer := some ln.config.lineGap } }
    let failing (y : Exchange) (ln : Line) : Line :=
      inGap { y with lastFailure := some .timeout }
        { ln with counters := { ln.counters with attemptsFailed := min (ln.counters.attemptsFailed + 1) 65535 } }
    let decided : Exchange := { x with outcome := some .failed, record := none, holdsReservation := false }
    let timedOut (e : Station) : Station :=
      { e with
        sticky := e.sticky ||| 1, lastFailure := some .timeout
        counters := { e.counters with attemptsFailed := min (e.counters.attemptsFailed + 1) 65535 } }
    (∀ n e, x.station = some n → s.station n = some e →
      (x.attempt ≤ e.retryLimit → x.record = none → x.kind = .poll ∨ x.kind = .probe →
        exec (.replyStartTimeout l) s = .next ((s.setStation n (some (timedOut e))).onLine l (failing x)))
      ∧ (∀ tag, x.attempt ≤ e.retryLimit → x.record = some tag → x.kind = .command →
        exec (.replyStartTimeout l) s =
          .next { (s.setStation n (some (timedOut e))).onLine l (failing x) with
            pool := { s.pool with
              records := s.pool.records.map fun c =>
                if c.tag = tag then { c with lastFailure := some .timeout } else c } })
      ∧ (e.retryLimit < x.attempt → x.record = none → x.kind = .poll → x.holdsReservation = true →
        exec (.replyStartTimeout l) s =
          .next { (s.setStation n
              (some { timedOut e with pollTimer := if e.pollPeriod = 0 then none else some e.pollPeriod })).onLine l
                (failing decided) with
            queue := { s.queue with reservations := s.queue.reservations - 1 } })
      ∧ (e.retryLimit < x.attempt → x.record = none → x.kind = .probe → x.holdsReservation = true →
        exec (.replyStartTimeout l) s =
          .next { (s.setStation n (some (timedOut e))).onLine l (failing decided) with
            queue := { s.queue with reservations := s.queue.reservations - 1 } })
      ∧ (∀ q ∈ s.pool.records, e.retryLimit < x.attempt → x.record = some q.tag → x.kind = .command →
        q.station = some n → (∀ c ∈ s.pool.records.takeWhile (·.tag != q.tag), c.station ≠ some n) →
        exec (.replyStartTimeout l) s =
          .next
            (recordDone { q with lastFailure := some .timeout } .failed []
              ((s.setStation n (some { timedOut e with busyStreak := 0 })).onLine l (failing decided)))))
    ∧ (x.kind = .rollCall → (∀ sc, (s.line l).scan = some sc → sc.rollCall = false) →
        exec (.replyStartTimeout l) s =
          .next (s.onLine l (inGap { x with outcome := some .absent, record := none, holdsReservation := false })))
    ∧ (∀ sc, x.kind = .rollCall → (s.line l).scan = some sc → sc.rollCall = true → sc.next ≤ sc.last →
        exec (.replyStartTimeout l) s =
          .next (s.onLine l fun ln =>
            inGap { x with outcome := some .absent, record := none, holdsReservation := false }
              { ln with scan := some { sc with rollCall := false } }))
    ∧ (∀ sc, x.kind = .rollCall → (s.line l).scan = some sc → sc.rollCall = true → sc.last < sc.next →
        exec (.replyStartTimeout l) s =
          .next (converted (.scanDone l .complete sc.responders)
            (s.onLine l fun ln =>
              inGap { x with outcome := some .absent, record := none, holdsReservation := false }
                { ln with scan := none })))

/-- R36, R39, R47, R48, R49, R51, R52, R56, R58: the character that completes a DATA, EMPTY or BUSY frame answering a
POLL or PROBE, its address and toggle the ones sent, is counted a good frame and accepted. DATA turns the reservation
into the STATION_DATA report; EMPTY and BUSY release it. DATA and EMPTY flip the station's toggle; BUSY starts the
holdoff timer. A POLL starts its poll timer again. The exchange is decided and in GAP. R60, R136: a PRESENT frame of
the scanned address, whatever its toggle, makes a ROLL_CALL present: the scan that waits for it adds the address to its
responders, and ends COMPLETE when no address remains; with no scan, or one that waits for none, the result is
discarded. The resync mark and bits 7 and 6 of a reply's CONTROL are disregarded (R31, R188). -/
def Obligations.PollAndProbeRepliesAreAccepted : Prop :=
  (∀ (s : State) (l : LineId) (x : Exchange) (chars : List Byte) (timer : Option Nat) (last control : Byte),
    (s.line l).mode = .active → (s.line l).driver = false → (s.line l).awaitsMark = false →
    (s.line l).exchange = some x → x.phase = .receive → x.kind = .rollCall →
    (s.line l).assembler = some ⟨chars, false, timer⟩ → x.target < 256 →
    control.toNat % 16 = 0xE → chars ++ [last] = lineFrame x.target control [] →
    let judged := s.onLine l fun ln =>
      { ln with
        awaitsMark := false, assembler := none
        counters := { ln.counters with goodFrames := min (ln.counters.goodFrames + 1) 65535 }
        exchange := some
          { x with
            phase := .gap, timer := some ln.config.lineGap, outcome := some .present, record := none
            holdsReservation := false } }
    ((∀ sc, (s.line l).scan = some sc → sc.rollCall = false) → exec (.frameReceived l last false) s = .next judged)
    ∧ ∀ sc, (s.line l).scan = some sc → sc.rollCall = true →
        exec (.frameReceived l last false) s =
          .next
            (if sc.last < sc.next then
              converted (.scanDone l .complete (sc.responders ++ [x.target]))
                (judged.onLine l fun ln => { ln with scan := none })
            else
              judged.onLine l fun ln =>
                { ln with scan := some { sc with rollCall := false, responders := sc.responders ++ [x.target] } }))
  ∧ ∀ (s : State) (l : LineId) (x : Exchange) (n : Nat) (e : Station) (chars payload : List Byte) (timer : Option Nat)
    (last control : Byte) (code : Nat) (kind : ReplyKind),
    (s.line l).mode = .active → (s.line l).driver = false → (s.line l).awaitsMark = false →
    (s.line l).exchange = some x → x.phase = .receive →
    x.kind = .poll ∨ x.kind = .probe → x.station = some n → s.station n = some e → x.holdsReservation = true →
    (s.line l).assembler = some ⟨chars, false, timer⟩ → x.target < 256 → payload.length ≤ 32 →
    control.toNat % 16 = code → control.getLsbD 4 = x.toggleSent → chars ++ [last] = lineFrame x.target control payload →
    (code = 0x8 ∧ kind = .data ∧ payload ≠ [] ∨ code = 0x9 ∧ kind = .empty ∧ payload = []
      ∨ code = 0xC ∧ kind = .busy ∧ payload = []) →
    let f : Station :=
      { e with
        toggle := if kind = .busy then e.toggle else !e.toggle
        holdoffTimer := if kind = .busy then some (s.line l).config.busyHoldoff else e.holdoffTimer
        pollTimer := if x.kind = .probe then e.pollTimer else if e.pollPeriod = 0 then none else some e.pollPeriod
        counters := { e.counters with
          completed := min (e.counters.completed + 1) 65535
          busyReplies := if kind = .busy then min (e.counters.busyReplies + 1) 65535 else e.counters.busyReplies
          dataReports := if kind = .data then min (e.counters.dataReports + 1) 65535 else e.counters.dataReports } }
    let t := (s.setStation n (some f)).onLine l fun ln =>
      { ln with
        awaitsMark := false, assembler := none
        counters := { ln.counters with goodFrames := min (ln.counters.goodFrames + 1) 65535 }
        exchange := some
          { x with
            phase := .gap, timer := some ln.config.lineGap, outcome := some (.accepted kind), record := none
            holdsReservation := false } }
    exec (.frameReceived l last false) s =
      .next
        (if kind = .data then converted (.stationData n payload) t
        else { t with queue := { s.queue with reservations := s.queue.reservations - 1 } })

/-- R57, R62, R63, R99, R101: the character that completes a DONE, REJECT or BUSY frame answering a COMMAND. DONE and
REJECT complete the record with the reply's payload, flip the toggle, set the busy streak to 0 and start the poll
timer. BUSY starts the holdoff timer and raises the busy streak; below the busy limit the record returns to QUEUED, or
completes CANCELLED if a cancel is pending; at the limit it completes STATION_BUSY, BUSY_LIMIT enters the sticky set
and the streak becomes 0. The resync mark and bits 7 and 6 of the reply's CONTROL are disregarded (R31, R188). -/
def Obligations.CommandRepliesAreAccepted : Prop :=
  ∀ (s : State) (l : LineId) (x : Exchange) (n : Nat) (e : Station) (q : CommandRecord) (chars payload : List Byte)
    (timer : Option Nat) (last control : Byte) (code : Nat) (kind : ReplyKind),
    (s.line l).mode = .active → (s.line l).driver = false → (s.line l).awaitsMark = false →
    (s.line l).exchange = some x → x.phase = .receive → x.kind = .command →
    x.station = some n → s.station n = some e → x.record = some q.tag → TagsDistinct s →
    q ∈ s.pool.records → q.station = some n → (∀ c ∈ s.pool.records.takeWhile (·.tag != q.tag), c.station ≠ some n) →
    (s.line l).assembler = some ⟨chars, false, timer⟩ → x.target < 256 → payload.length ≤ 32 →
    control.toNat % 16 = code → control.getLsbD 4 = x.toggleSent → chars ++ [last] = lineFrame x.target control payload →
    let t (f : Station) := (s.setStation n (some f)).onLine l fun ln =>
      { ln with
        awaitsMark := false, assembler := none
        counters := { ln.counters with goodFrames := min (ln.counters.goodFrames + 1) 65535 }
        exchange := some
          { x with
            phase := .gap, timer := some ln.config.lineGap, outcome := some (.accepted kind), record := none
            holdsReservation := false } }
    let answered : Station :=
      { e with
        toggle := !e.toggle, busyStreak := 0, pollTimer := if e.pollPeriod = 0 then none else some e.pollPeriod
        counters := { e.counters with completed := min (e.counters.completed + 1) 65535 } }
    let streak := min (e.busyStreak + 1) 15
    let busy : Station :=
      { e with
        busyStreak := streak, holdoffTimer := some (s.line l).config.busyHoldoff
        counters := { e.counters with
          completed := min (e.counters.completed + 1) 65535
          busyReplies := min (e.counters.busyReplies + 1) 65535 } }
    (code = 0xA → kind = .done → exec (.frameReceived l last false) s = .next (recordDone q .done payload (t answered)))
    ∧ (code = 0xB → kind = .reject →
        exec (.frameReceived l last false) s = .next (recordDone q .rejected payload (t answered)))
    ∧ (code = 0xC → kind = .busy → payload = [] → (s.line l).config.busyLimit ≤ streak →
        exec (.frameReceived l last false) s =
          .next (recordDone q .stationBusy []
            (t { busy with sticky := e.sticky ||| 0x100#16, busyStreak := 0 })))
    ∧ (code = 0xC → kind = .busy → payload = [] → streak < (s.line l).config.busyLimit → q.cancelPending = true →
        exec (.frameReceived l last false) s = .next (recordDone q .cancelled [] (t { busy with busyStreak := 0 })))
    ∧ (code = 0xC → kind = .busy → payload = [] → streak < (s.line l).config.busyLimit → q.cancelPending = false →
        exec (.frameReceived l last false) s =
          .next { t busy with
            pool := { s.pool with
              records := s.pool.records.map fun c => if c.tag = q.tag then { c with state := .queued } else c } })

/-- R188: the CONTROL character carries kind, toggle and resync mark in bits 3 to 0, 4 and 5; the part sends bits 7
and 6 as 0 and disregards them on receipt, but for the CRC, which covers the whole byte. Kind codes 0x0, 0x6, 0x7, 0xF
and the five that the part sends are of unknown kind, and a capture carries them as received. Every field of a body
has the codes of the tables, and the sticky error set the failure kind's code less one as its bit number. -/
def Obligations.CodesFollowTheTables : Prop :=
  (∀ (kind : ExchangeKind) (target : Nat) (toggle : Bool) (payload : List Byte),
    let control := (exchangeFrame kind target toggle payload).getD 1 0
    control.toNat % 16
        = (match kind with | .poll => 0x1 | .command => 0x2 | .probe => 0x3 | .broadcast => 0x4 | .rollCall => 0x5)
      ∧ control.getLsbD 4 = toggle ∧ control.getLsbD 5 = (kind == .probe) ∧ control.getLsbD 6 = false
      ∧ control.getLsbD 7 = false)
  ∧ (∀ n, let control := (testFrame n).getD 1 0
      control.toNat % 16 = 0x4 ∧ control.getLsbD 4 = (n % 2 == 1) ∧ control.getLsbD 5 = false
        ∧ control.getLsbD 6 = false ∧ control.getLsbD 7 = false)
  ∧ (∀ t p, (exchangeFrame .probe t false p).getD 1 0 = 0x23#8 ∧ (exchangeFrame .poll t true p).getD 1 0 = 0x11#8)
  ∧ (∀ (address control high : Byte) (rest : List Byte) (framing : Bool) (cause : Option AbandonCause),
      let h : HandedUp := ⟨address :: control :: rest, framing, cause⟩
      let h' : HandedUp := ⟨address :: (control &&& 0x3F#8 ||| high &&& 0xC0#8) :: rest, framing, cause⟩
      h.kindCode = control.toNat % 16 ∧ h.toggle = control.getLsbD 4 ∧ h.resync = control.getLsbD 5
        ∧ h'.kindCode = h.kindCode ∧ h'.toggle = h.toggle ∧ h'.resync = h.resync)
  ∧ (∀ (address control : Byte) (rest crc : List Byte), rest.length = 1 + (rest.getD 0 0).toNat →
      let covered := address :: control :: rest
      (⟨covered ++ crc, false, none⟩ : HandedUp).crcMatches
        = (crc == [highByte (crc16 covered), lowByte (crc16 covered)]))
  ∧ (∀ code ∈ [0x0, 0x6, 0x7, 0xF, 0x1, 0x2, 0x3, 0x4, 0x5], ∀ length l rest framing cause (address control : Byte),
      control.toNat % 16 = code → replyKind code length = none
        ∧ (∀ (kind : ExchangeKind) (sent : Bool) (target : Nat) (crc : List Byte),
            let covered := address :: control :: rest
            address.toNat = target → rest.length = 1 + (rest.getD 0 0).toNat →
            crc = [highByte (crc16 covered), lowByte (crc16 covered)] →
            judge kind target sent ⟨covered ++ crc, false, none⟩ = .fails .badKind)
        ∧ ∃ n p c,
            captureReport l ⟨address :: control :: rest, framing, cause⟩
              = .capture l address (some code) (some (control.getLsbD 4)) n p framing c cause.isSome)
  ∧ (∀ length, 1 ≤ length → length ≤ 32 → replyKind 0x8 length = some .data)
  ∧ (∀ length, length ≤ 32 → replyKind 0xA length = some .done ∧ replyKind 0xB length = some .reject)
  ∧ [0x9, 0xC, 0xD, 0xE].map (replyKind · 0) = [some .empty, some .busy, some .checkFail, some .present]
  ∧ [Status.ok, .accepted, .backoff, .noSession, .badRequest, .badParameter, .noStation, .stationExists, .addressInUse,
        .stationDisabled, .stationOffline, .stationBusy, .tagInUse, .unknownTag, .inFlight, .stationQueueFull, .poolFull,
        .noReportSpace, .lineMode, .lineBusy, .noScan].map Status.code
      = (List.range 21).map b8
  ∧ [StationState.disabled, .probing, .online, .suspect, .offline].map StationState.code = List.range 5
  ∧ (∀ n, (blankStationData n).getD 10 0 = 0xFF#8)
  ∧ [none, some FailureKind.timeout, some .truncated, some .framing, some .check, some .wrongResponder, some .badKind,
        some .toggle, some .nak, some .busyLimit].map failureCode
      = List.range 10
  ∧ [CommandOutcome.done, .rejected, .sent, .failed, .stationBusy, .cancelled, .stationLost, .resync, .removed,
        .disabled].map CommandOutcome.code
      = (List.range 10).map (· + 1)
  ∧ [none, some StationCause.define, some .enable, some .disable, some .reached, some .failing, some .recovered,
        some .lost, some .failover, some .lineReset].map stationCauseCode
      = List.range 10
  ∧ [none, some LineCause.modeSet, some .testStarted, some .testEnded, some .lineReset, some .stuck,
        some .stuckCleared].map lineCauseCode
      = List.range 7
  ∧ [LineMode.off, .active, .monitor, .test].map LineMode.code = List.range 4
  ∧ [ScanStatus.complete, .cancelled, .modeChange, .lineFault, .lineReset].map ScanStatus.code = [1, 2, 3, 4, 5]
  ∧ [TestStatus.complete, .aborted].map TestStatus.code = [1, 2]
  ∧ [SessionState.closed, .opened, .stalled].map SessionState.code = [0, 1, 2]
  ∧ [none, some ExchangeKind.poll, some .command, some .probe, some .broadcast, some .rollCall].map inFlightCode
      = List.range 6
  ∧ [none, some Phase.transmit, some .guard, some .await, some .receive, some .gap].map phaseCode = List.range 6
  ∧ (List.range 5).map functionOf
      = [some .latch, some .stuckA, some .stuckB, some .sessionStalled, some .reportsUnsent]
  ∧ (∀ report : Report, report.bytes.head? = some
      (match report with
      | .stationData .. => 1
      | .commandDone .. => 2
      | .stationState .. => 3
      | .lineState .. => 4
      | .scanDone .. => 5
      | .testDone .. => 6
      | .capture .. => 7))
  ∧ (∀ (set : Half) (k : FailureKind) (i : Nat),
      (addSticky set k).getLsbD i = (set.getLsbD i || decide (i + 1 = k.code)))
  ∧ addSticky (addSticky 0 .timeout) .check = 0x0009#16 ∧ addSticky 0 .busyLimit = 0x0100#16
  ∧ (∀ (s : State) (mask : Nat) (value : Bool) (i : Nat) (h : i < 4),
      (writeLatches mask value s).outputs[i].latch = if mask.testBit i then value else s.outputs[i].latch)

/-! ### The end of an exchange, loss and recovery -/

/-- R48, R55, R64, R108, R110, R119, R17: when the gap timer expires, an exchange without an outcome sends the same
frame again as its next attempt, or, with a cancel pending, completes its record CANCELLED and ends. A decided
exchange ends: after an accepted reply SUSPECT becomes ONLINE with failures 0, cause RECOVERED, PROBING and OFFLINE
become ONLINE and leave the probe list with the poll timer started, cause REACHED, and ONLINE and DISABLED stay. A
pending disable then takes effect, in every state and after every outcome, on what the end has left. -/
def Obligations.GapsEndOrRepeatExchanges : Prop :=
  ∀ (s : State) (l : LineId) (x : Exchange), (s.line l).exchange = some x → x.phase = .gap →
    let idle := s.onLine l fun ln => { ln with exchange := none }
    let again : Exchange := { x with attempt := x.attempt + 1, phase := .transmit, charsSent := 0, timer := none }
    (x.outcome = none → x.record = none →
      exec (.gapExpiry l) s = .next (s.onLine l fun ln => { ln with driver := true, exchange := some again }))
    ∧ (∀ q ∈ s.pool.records, TagsDistinct s → x.outcome = none → x.record = some q.tag → q.cancelPending = false →
        exec (.gapExpiry l) s =
          .next { s.onLine l fun ln => { ln with driver := true, exchange := some again } with
            pool := { s.pool with
              records := s.pool.records.map fun c =>
                if c.tag = q.tag then { c with attempts := min (c.attempts + 1) 255 } else c } })
    ∧ (∀ q n e, q ∈ s.pool.records → TagsDistinct s → x.outcome = none → x.record = some q.tag →
        q.cancelPending = true → x.station = some n → s.station n = some e → e.pendingDisable = false →
        q.station = some n → (∀ c ∈ s.pool.records.takeWhile (·.tag != q.tag), c.station ≠ some n) →
        exec (.gapExpiry l) s =
          .next (recordDone q .cancelled [] (idle.setStation n (some { e with busyStreak := 0 }))))
    ∧ (x.outcome.isSome → x.station = none → exec (.gapExpiry l) s = .next idle)
    ∧ (∀ n e, x.station = some n → s.station n = some e → e.pendingDisable = true → TagsDistinct s →
        (x.outcome.isSome ∨ ∃ q ∈ s.pool.records, x.record = some q.tag ∧ q.cancelPending = true) →
        ∃ u, exec (.gapExpiry l) (s.setStation n (some { e with pendingDisable := false })) = .next u
          ∧ exec (.gapExpiry l) s = .next (disableDone n u))
    ∧ ∀ k n e, x.outcome = some (.accepted k) → x.station = some n → s.station n = some e →
        (e.pendingDisable = false →
          (e.state = .online ∨ e.state = .disabled → exec (.gapExpiry l) s = .next idle)
          ∧ (e.state = .suspect →
            exec (.gapExpiry l) s =
              .next (idle.setStation n (some (noticed { e with state := .online, failures := 0 } .recovered))))
          ∧ (e.state = .probing ∨ e.state = .offline →
            exec (.gapExpiry l) s =
              .next (probeListed none n
                (idle.setStation n
                  (some
                    (noticed
                      { e with
                        state := .online, failures := 0, probeTimer := none
                        pollTimer := if e.pollPeriod = 0 then none else some e.pollPeriod }
                      .reached))))))
        ∧ (e.pendingDisable = true → e.state = .online → TagsDistinct s →
            exec (.gapExpiry l) s =
              .next (probeListed none n
                ((recordsDone (s.pool.records.filter (·.station == some n)) .disabled idle).setStation n
                  (some
                    (noticed
                      { e with
                        state := .disabled, pollTimer := none, holdoffTimer := none, probeTimer := none
                        pollDue := false, pendingDisable := false, failures := 0, busyStreak := 0 }
                      .disable)))))

/-- R64, R108, R109, R111, R112, R113, R114, R115, R120: an exchange whose attempts all failed ends. The consecutive
failures rise, up to 15, and ONLINE becomes SUSPECT, cause FAILING. When they have reached the offline threshold in
SUSPECT or PROBING: without failover the station becomes OFFLINE, joins the probe list (from SUSPECT) and its records
complete STATION_LOST; with an alternate line, and the other line ACTIVE, it changes its line, its transmitted records
complete RESYNC, the others move with it, and it enters PROBING there. In OFFLINE the failures are only counted. (The
other line counts as ACTIVE by its mode as it stands, also while a SET_LINE_MODE or RESET_LINE of it waits for the
character in its shift path, which R112 leaves open: the model's choice, assumption 7.) -/
def Obligations.FailedExchangesLoseOrMoveStations : Prop :=
  ∀ (s : State) (l : LineId) (x : Exchange) (n : Nat) (e : Station), (s.line l).exchange = some x → x.phase = .gap →
    x.outcome = some .failed → x.station = some n → s.station n = some e → e.pendingDisable = false → TagsDistinct s →
    let idle := s.onLine l fun ln => { ln with exchange := none }
    let risen := min (e.failures + 1) 15
    let records := s.pool.records.filter (·.station == some n)
    let mayMove := e.alternate.isSome ∧ (s.line e.current.other).mode = .active
    let lost (e : Station) : State :=
      let f := noticed { e with state := .offline, failures := risen, busyStreak := if records = [] then e.busyStreak else 0 } .lost
      if e.state = .probing then (recordsDone records .stationLost idle).setStation n (some f)
      else
        probeListed (some e.current) n
          ((recordsDone records .stationLost idle).setStation n
            (some { f with pollTimer := none, pollDue := false, probeTimer := some 0 }))
    let moved (e : Station) : State :=
      let done := recordsDone (records.filter (·.transmitted)) .resync idle
      probeListed (some e.current.other) n
        (({ done with
            pool := { done.pool with
              records := done.pool.records.map fun c =>
                if c.station = some n then { c with line := e.current.other } else c } } : State).setStation n
          (some
            (noticed
              { e with
                state := .probing, current := e.current.other, probeTimer := some 0, failures := 0, busyStreak := 0
                pollDue := false, pollTimer := none, holdoffTimer := none
                counters := { e.counters with lineSwitches := min (e.counters.lineSwitches + 1) 65535 } }
              .failover)))
    let failing := noticed { e with state := .suspect, failures := risen } .failing
    (risen < e.offlineThreshold →
      (e.state = .online → exec (.gapExpiry l) s = .next (idle.setStation n (some failing)))
      ∧ (e.state = .suspect ∨ e.state = .probing →
        exec (.gapExpiry l) s = .next (idle.setStation n (some { e with failures := risen }))))
    ∧ (e.offlineThreshold ≤ risen →
      (e.state = .online → exec (.gapExpiry l) s = .next (if mayMove then moved failing else lost failing))
      ∧ (e.state = .suspect ∨ e.state = .probing →
        exec (.gapExpiry l) s = .next (if mayMove then moved e else lost e)))
    ∧ (e.state = .offline → exec (.gapExpiry l) s = .next (idle.setStation n (some { e with failures := risen })))

/-- R65, R66, R67, R64, R17, R108, R25, R136: cutting a line's work off releases the driver (but for one that a
character left by RESTART still holds: the model's choice, assumption 9) and abandons a partial frame. An exchange cut
off before its outcome is decided gives its work back: a POLL releases its reservation and leaves the station due, a
PROBE releases its reservation with the probe timer at 0, a command or broadcast returns to QUEUED, or completes
CANCELLED if a cancel is pending (of a broadcast that is the model's reading, assumption 14), a ROLL_CALL is absent,
which ends a scan at its last address COMPLETE (the model's reading, assumption 13) and is discarded where no scan waits
for it; the station's loss and recovery state is untouched. One with a decided outcome ends as at the expiry of its gap.
A pending disable then takes effect. -/
def Obligations.CutOffExchangesGiveTheirWorkBack : Prop :=
  ∀ (s : State) (l : LineId), TagsDistinct s →
    let released (ln : Line) : Line :=
      { ln with
        driver := ln.driver && ln.afterRestart.isSome, assembler := none
        counters := abandonedIf ln.assembler.isSome ln.counters }
    let ended : State := s.onLine l fun ln => { released ln with exchange := none }
    let freed (t : State) : State := { t with queue := { s.queue with reservations := s.queue.reservations - 1 } }
    ((s.line l).exchange = none → cutOff l s = s.onLine l released)
    ∧ ∀ x : Exchange, (s.line l).exchange = some x →
      (x.outcome.isSome →
        exec (.gapExpiry l) (s.onLine l fun ln => { released ln with exchange := some { x with phase := .gap } })
          = .next (cutOff l s))
      ∧ (∀ n e, x.station = some n → s.station n = some e → e.pendingDisable = true →
          cutOff l s = disableDone n (cutOff l (s.setStation n (some { e with pendingDisable := false }))))
      ∧ (x.outcome = none →
        (∀ n e, x.station = some n → s.station n = some e → e.pendingDisable = false →
          (x.kind = .poll → x.holdsReservation = true →
            cutOff l s = freed (ended.setStation n (some { e with pollDue := true })))
          ∧ (x.kind = .probe → x.holdsReservation = true →
            cutOff l s = freed (ended.setStation n (some { e with probeTimer := some 0 })))
          ∧ (∀ q ∈ s.pool.records, x.kind = .command → x.record = some q.tag → q.cancelPending = true →
            q.station = some n → (∀ c ∈ s.pool.records.takeWhile (·.tag != q.tag), c.station ≠ some n) →
            cutOff l s = recordDone q .cancelled [] (ended.setStation n (some { e with busyStreak := 0 })))
          ∧ (∀ q ∈ s.pool.records, x.kind = .command → x.record = some q.tag → q.cancelPending = false →
            cutOff l s =
              { ended with
                pool := { s.pool with
                  records := s.pool.records.map fun c => if c.tag = q.tag then { c with state := .queued } else c } }))
        ∧ (∀ q ∈ s.pool.records, x.kind = .broadcast → x.station = none → x.record = some q.tag → q.station = none →
            cutOff l s =
              if q.cancelPending then recordDone q .cancelled [] ended
              else
                { ended with
                  pool := { s.pool with
                    records := s.pool.records.map fun c => if c.tag = q.tag then { c with state := .queued } else c } })
        ∧ (x.kind = .rollCall → x.station = none → (∀ sc, (s.line l).scan = some sc → sc.rollCall = false) →
            cutOff l s = ended)
        ∧ (∀ sc, x.kind = .rollCall → x.station = none → (s.line l).scan = some sc → sc.rollCall = true →
            cutOff l s =
              if sc.last < sc.next then
                converted (.scanDone l .complete sc.responders) (ended.onLine l fun ln => { ln with scan := none })
              else ended.onLine l fun ln => { ln with scan := some { sc with rollCall := false } }))

/-! ### The receiver -/

/-- R26, R28, R34, R35, R37, R39, R46, R140: a character with address mark 1 on an open receiver that seeks a frame
begins one, and in AWAIT begins RECEIVE; a character short of the frame's end is added; either starts the
inter-character timer. A framing error is counted, marks the frame and makes the receiver wait for mark; while it waits
no character reaches it (a command for one leaves the state as it is: the model's choice, assumption 3), but in TEST,
where the wait plays no part (the model's choice, assumption 18) and the character is the one of the test on the
internal loop, which is thereby delivered. A character outside the receive window in ACTIVE, or with address mark 0
while a frame is sought, is stray. -/
def Obligations.CharactersAreAssembled : Prop :=
  ∀ (s : State) (l : LineId) (byte : Byte) (fe : Bool),
    let counted (c : LineCounters) : LineCounters :=
      { c with framingErrors := if fe then min (c.framingErrors + 1) 65535 else c.framingErrors }
    let delivered (ln : Line) : Option LineTest :=
      if ln.mode = .test then ln.test.map fun t => { t with delivered := true } else ln.test
    let stray := s.onLine l fun ln =>
      { ln with
        awaitsMark := fe
        counters := { ln.counters with strayCharacters := min (ln.counters.strayCharacters + 1) 65535 }
        test := delivered ln }
    let hears := (s.line l).awaitsMark = false
    let looped (mark : Bool) : Prop :=
      (s.line l).mode = .test ∧ fe = false ∧ (s.line l).ending = none ∧ (s.line l).exchange = none
        ∧ ∃ t, (s.line l).test = some t ∧ t.phase = .sending ∧ t.delivered = false ∧ mark = (t.charsSent == 0)
            ∧ (lineFrame 0 (if t.index % 2 = 1 then 0x14#8 else 0x04#8)
                ((List.range 32).map fun p => b8 (7 * t.index + p)))[t.charsSent]? = some byte
    ((s.line l).mode = .monitor ∧ hears ∨ looped true → (s.line l).assembler = none →
      (s.line l).exchange = none →
      exec (.addressCharacterReceived l byte fe) s =
        .next (s.onLine l fun ln =>
          { ln with
            awaitsMark := fe, counters := counted ln.counters, test := delivered ln
            assembler := some ⟨[byte], fe, some ln.config.intercharacter⟩ }))
    ∧ (∀ x, (s.line l).mode = .active → (s.line l).driver = false → hears → (s.line l).assembler = none →
        (s.line l).exchange = some x → x.phase = .await →
      exec (.addressCharacterReceived l byte fe) s =
        .next (s.onLine l fun ln =>
          { ln with
            awaitsMark := fe, counters := counted ln.counters
            assembler := some ⟨[byte], fe, some ln.config.intercharacter⟩
            exchange := some { x with phase := .receive, timer := none } }))
    ∧ (∀ p, (s.line l).assembler = some p →
        ((s.line l).mode = .monitor ∧ hears ∨ looped false
          ∨ ((s.line l).mode = .active ∧ (s.line l).driver = false ∧ hears
              ∧ ∃ x, (s.line l).exchange = some x ∧ x.phase = .receive)) →
        (p.chars.length = 1 ∨ (p.chars.length = 2 ∧ byte.toNat ≤ 32)
          ∨ (3 ≤ p.chars.length ∧ p.chars.length + 1 < 5 + (p.chars.getD 2 0).toNat)) →
      exec (.frameCharacterReceived l byte fe) s =
        .next (s.onLine l fun ln =>
          { ln with
            awaitsMark := fe, counters := counted ln.counters, test := delivered ln
            assembler := some ⟨p.chars ++ [byte], p.framing || fe, some ln.config.intercharacter⟩ }))
    ∧ (∀ mark, (s.line l).mode = .active → (s.line l).driver = false → hears →
        (∀ x, (s.line l).exchange = some x → x.phase = .gap) →
        exec (.strayCharacter l byte mark fe) s = .next stray)
    ∧ (∀ x, (s.line l).mode = .active → (s.line l).driver = false → hears → (s.line l).exchange = some x →
        x.phase = .await ∨ x.phase = .receive → (s.line l).assembler = none →
        exec (.strayCharacter l byte false fe) s = .next stray)
    ∧ ((s.line l).mode = .monitor ∧ hears ∨ looped false → (s.line l).assembler = none →
        exec (.strayCharacter l byte false fe) s = .next stray)
    ∧ (∀ c ∈ [Instr.addressCharacterReceived l byte fe, .frameCharacterReceived l byte fe, .lengthAbandon l byte fe,
          .frameReceived l byte fe, .strayCharacter l byte false fe, .strayCharacter l byte true fe],
        (s.line l).awaitsMark = true → (s.line l).mode ≠ .test → exec c s = .next s)

/-- R27, R28, R29, R30, R35, R26, R140, R167: an accepted start bit stops the inter-character timer; a discarded edge
raises glitches and does nothing else; both where the receiver seeks an edge. In TEST, where its input is the internal
loop, a start bit is accepted while a character of the test is there to be taken; no other start bit and no glitch can
come there (such a command leaves the state as it is: the model's choice, assumption 3). A change of the receive pin's
level is held, and a return to mark ends the receiver's wait, but in TEST, where the wait and the pin play no part (the
model's choice, assumption 18). STUCK clears, with its notice, where it stands and the pin is at mark. The HOLD pin is
high exactly while the intake holds 4 requests. -/
def Obligations.EdgesAndLevelsAreTaken : Prop :=
  ∀ (s : State) (l : LineId),
    let started :=
      s.onLine l fun ln => { ln with assembler := ln.assembler.map fun p => { p with timer := none } }
    (((s.line l).mode = .monitor ∨ ((s.line l).mode = .active ∧ (s.line l).driver = false)) →
        (s.line l).awaitsMark = false →
      exec (.startBitAccepted l) s = .next started
      ∧ exec (.glitch l) s =
          .next (s.onLine l fun ln =>
            { ln with counters := { ln.counters with glitches := min (ln.counters.glitches + 1) 65535 } }))
    ∧ (∀ t, (s.line l).mode = .test → (s.line l).ending = none → (s.line l).exchange = none →
        (s.line l).test = some t →
        exec (.startBitAccepted l) s =
            .next (if t.phase = .sending ∧ t.delivered = false then started else s)
        ∧ exec (.glitch l) s = .next s)
    ∧ (∀ mark, exec (.receiveInputLevelChange l mark) s =
        .next (s.onLine l fun ln =>
          { ln with rxMark := mark, awaitsMark := ln.awaitsMark && !(mark && ln.mode != .test) }))
    ∧ (s.holdPin = true ↔ s.link.intake.length = 4)
    ∧ ((s.line l).stuck = true → (s.line l).mode = .active ∨ (s.line l).mode = .monitor → (s.line l).driver = false →
        (s.line l).rxMark = true →
        exec (.stuckCleared l) s = .next (s.onLine l fun ln => lineNoticed { ln with stuck := false } .stuckCleared))

/-- R29, R66, R130, R137, R132, R34, R35, R36: in a space run on a line in ACTIVE or MONITOR without its driver, STUCK
is raised: stuck events rises and the notice is set, cause STUCK. In ACTIVE the exchange in flight is cut off and a
scan then ends LINE_FAULT. In MONITOR a partial frame is abandoned. There every frame handed up, one that STUCK, a
LENGTH above 32, the inter-character timer or a new address character abandons, and every complete one with its framing
and check flags, is captured where the queue has space, and otherwise counted lost. -/
def Obligations.StuckEndsTheLinesWork : Prop :=
  ∀ (s : State) (l : LineId),
    let raised := s.onLine l fun ln =>
      lineNoticed
        { ln with
          stuck := true, counters := { ln.counters with stuckEvents := min (ln.counters.stuckEvents + 1) 65535 } }
        .stuck
    let captured (h : HandedUp) (t : State) : State :=
      let known (n : Nat) := decide (n < h.chars.length)
      if t.queue.entries.length + t.queue.reservations < 128 then
        { t with
          queue := { t.queue with
            entries := t.queue.entries ++
              [⟨t.queue.seqCounter,
                .capture l h.address (if known 1 then some h.kindCode else none) (if known 1 then some h.toggle else none)
                  (if known 2 then some h.length else none) h.payload h.framing (h.abandoned.isNone && !h.crcMatches)
                  h.abandoned.isSome,
                false⟩]
            seqCounter := t.queue.seqCounter + 1 } }
      else
        t.onLine l fun ln =>
          { ln with counters := { ln.counters with capturesLost := min (ln.counters.capturesLost + 1) 65535 } }
    let heard (awaits fe : Bool) (held : Option PartialFrame) (counters : LineCounters → LineCounters) (ln : Line) : Line :=
      let c := counters ln.counters
      { ln with
        awaitsMark := awaits, assembler := held
        counters := { c with framingErrors := if fe then min (c.framingErrors + 1) 65535 else c.framingErrors } }
    ((s.line l).stuck = false → (s.line l).rxMark = false → (s.line l).driver = false →
      ((s.line l).mode = .active → exec (.stuckRaised l) s = .next (scanEnded l .lineFault (cutOff l raised)))
      ∧ ((s.line l).mode = .monitor → (s.line l).assembler = none → exec (.stuckRaised l) s = .next raised)
      ∧ (∀ p, (s.line l).mode = .monitor → (s.line l).assembler = some p →
          exec (.stuckRaised l) s =
            .next (captured ⟨p.chars, p.framing, some .stuck⟩
              (raised.onLine l (heard (s.line l).awaitsMark false none (abandonedIf true))))))
    ∧ ∀ (p : PartialFrame) (byte : Byte) (fe : Bool), (s.line l).mode = .monitor → (s.line l).assembler = some p →
      (p.timer.isSome →
        exec (.intercharacterTimeout l) s =
          .next (captured ⟨p.chars, p.framing, some .intercharacter⟩
            (s.onLine l (heard (s.line l).awaitsMark false none (abandonedIf true)))))
      ∧ ((s.line l).awaitsMark = false →
        (p.chars.length = 2 → 32 < byte.toNat →
          exec (.lengthAbandon l byte fe) s =
            .next (captured ⟨p.chars ++ [byte], p.framing || fe, some .length⟩
              (s.onLine l (heard fe fe none (abandonedIf true)))))
        ∧ ((s.line l).exchange = none →
          exec (.addressCharacterReceived l byte fe) s =
            .next (captured ⟨p.chars, p.framing, some .newAddress⟩
              (s.onLine l (heard fe fe (some ⟨[byte], fe, some (s.line l).config.intercharacter⟩) (abandonedIf true)))))
        ∧ (p.chars.length = 4 + (p.chars.getD 2 0).toNat →
          let h : HandedUp := ⟨p.chars ++ [byte], p.framing || fe, none⟩
          exec (.frameReceived l byte fe) s =
            .next (captured h
              (s.onLine l (heard fe fe none fun c =>
                { c with
                  goodFrames := if h.crcMatches ∧ h.framing = false then min (c.goodFrames + 1) 65535 else c.goodFrames
                  checkErrors := if h.crcMatches then c.checkErrors else min (c.checkErrors + 1) 65535 })))))

/-- R34 to R37, R47, R49, R50, R53, R54, R60, R61, R97: in RECEIVE the frame is abandoned by a LENGTH above 32, by the
inter-character timer or by a new address character (which then counts as stray), raising abandoned frames, and the
attempt of a POLL, PROBE or COMMAND fails TRUNCATED, or FRAMING when a framing error was among its characters; a
complete frame fails it with the kind that its judgement gives, and with NAK when it is a CHECK_FAIL. The failure enters
the exchange, its record, the station and the line. The last attempt allowed decides the exchange: a POLL or PROBE
releases its reservation, and a POLL starts its poll timer; a COMMAND's record completes FAILED. Any of these makes a
ROLL_CALL absent, without a failure, which a scan that waits for none discards (R136). In GAP the assembler seeks. (That
the new address character's framing error is counted is the model's reading, assumption 10.) -/
def Obligations.SpoiltRepliesFailTheAttempt : Prop :=
  ∀ (s : State) (l : LineId) (x : Exchange) (n : Nat) (e : Station) (q : CommandRecord) (p : PartialFrame) (byte : Byte)
    (fe : Bool),
    (s.line l).mode = .active → (s.line l).driver = false → (s.line l).exchange = some x → x.phase = .receive →
    (s.line l).assembler = some p → TagsDistinct s →
    x.kind = .rollCall
      ∨ (x.station = some n ∧ s.station n = some e
          ∧ ((x.kind = .poll ∨ x.kind = .probe) ∧ x.record = none ∧ x.holdsReservation = true
            ∨ x.kind = .command ∧ x.record = some q.tag ∧ q ∈ s.pool.records ∧ q.station = some n
              ∧ (∀ c ∈ s.pool.records.takeWhile (·.tag != q.tag), c.station ≠ some n))) →
    let up (b : Bool) (v : Nat) := if b then min (v + 1) 65535 else v
    let last := decide (e.retryLimit < x.attempt)
    let inGap (y : Exchange) (ln : Line) : Line :=
      { ln with assembler := none, exchange := some { y with phase := .gap, timer := some ln.config.lineGap } }
    let decided (o : ExchangeOutcome) (y : Exchange) : Exchange :=
      { y with outcome := some o, record := none, holdsReservation := false }
    let failed (k : FailureKind) (heard : Line → Line) : State :=
      let y : Exchange := { x with lastFailure := some k }
      (s.setStation n
        (some
          { e with
            sticky := e.sticky ||| 1#16 <<< (k.code - 1), lastFailure := some k
            counters := { e.counters with attemptsFailed := min (e.counters.attemptsFailed + 1) 65535 }
            pollTimer :=
              if last ∧ x.kind = .poll then (if e.pollPeriod = 0 then none else some e.pollPeriod) else e.pollTimer
            busyStreak := if last ∧ x.kind = .command then 0 else e.busyStreak })).onLine l fun ln =>
        let c := (heard ln).counters
        inGap (if last then decided .failed y else y)
          { heard ln with counters := { c with attemptsFailed := min (c.attemptsFailed + 1) 65535 } }
    let absent (heard : Line → Line) : State :=
      let t := s.onLine l fun ln => inGap (decided .absent x) (heard ln)
      match (s.line l).scan with
      | none => t
      | some sc =>
        if sc.rollCall = false then t
        else if sc.last < sc.next then
          converted (.scanDone l .complete sc.responders) (t.onLine l fun ln => { ln with scan := none })
        else t.onLine l fun ln => { ln with scan := some { sc with rollCall := false } }
    let ends (k : FailureKind) (heard : Line → Line) : State :=
      if x.kind = .rollCall then absent heard
      else if x.kind = .command then
        if last then recordDone { q with lastFailure := some k } .failed [] (failed k heard)
        else
          { failed k heard with
            pool := { s.pool with
              records := s.pool.records.map fun c => if c.tag = q.tag then { c with lastFailure := some k } else c } }
      else if last then { failed k heard with queue := { s.queue with reservations := s.queue.reservations - 1 } }
      else failed k heard
    let spoilt (framing : Bool) : FailureKind := if framing then .framing else .truncated
    let heard (fe : Bool) (counters : LineCounters → LineCounters) (ln : Line) : Line :=
      let c := counters ln.counters
      { ln with awaitsMark := fe, counters := { c with framingErrors := up fe c.framingErrors } }
    (p.timer.isSome →
      exec (.intercharacterTimeout l) s =
        .next (ends (spoilt p.framing) fun ln => { ln with counters := abandonedIf true ln.counters }))
    ∧ ((s.line l).awaitsMark = false →
      (p.chars.length = 2 → 32 < byte.toNat →
        exec (.lengthAbandon l byte fe) s = .next (ends (spoilt (p.framing || fe)) (heard fe (abandonedIf true))))
      ∧ exec (.addressCharacterReceived l byte fe) s =
          .next (ends (spoilt p.framing) (heard fe fun c =>
            { abandonedIf true c with strayCharacters := min (c.strayCharacters + 1) 65535 }))
      ∧ ∀ k, p.chars.length = 4 + (p.chars.getD 2 0).toNat →
          let h : HandedUp := ⟨p.chars ++ [byte], p.framing || fe, none⟩
          judge x.kind x.target x.toggleSent h = .fails k
            ∨ judge x.kind x.target x.toggleSent h = .passes .checkFail ∧ k = .nak →
          exec (.frameReceived l byte fe) s =
            .next (ends k (heard fe fun c =>
              { c with
                goodFrames := up (h.crcMatches && !h.framing) c.goodFrames
                checkErrors := up (!h.crcMatches) c.checkErrors })))

/-! ### Line tests -/

/-- R139, R140, R141, R22, R23, R26, R34, R35, R36, R39: the character of a test frame in the shift path stands on the
internal loop, and the transmit pin is at mark. The loop delivers it to the receiver: CHARACTER_SENT and FRAME_SENT act
on a character that the receiver has not taken as its own row does, the row that its levels on the loop name, before
anything else; sent whole to a receiver that seeks a frame, the frame is assembled while it is sent, counts as a good
frame and is judged a match when its last character has left. A character but the frame's last is counted. With the
last, frames sent of line and test rise, and the test enters AWAITING, or, where the frame was handed up while it was
sent, is judged at once; the expiry of AWAITING judges it not matched. A judgement counts a match, or keeps the first
mismatch, and begins GAP, whose expiry starts the next frame, or, at the last frame, ends the test COMPLETE with its
TEST_DONE report, mode OFF and the notice. The first complete frame or abandonment handed up since the frame began is
held while the frame is sent and judged in AWAITING: a complete frame is a match when it is the frame sent without a
framing error, and anything else, a frame abandoned by LENGTH, timer or a new address character among it, is not. Good
frames, check errors and abandoned frames rise as in any mode. (That a character on the loop may be taken by its row
before it has left, and that any other received character leaves the state of TEST as it is, since none can come, are
the model's choices, assumptions 25 and 3.) -/
def Obligations.LineTestsRun : Prop :=
  ∀ (s : State) (l : LineId) (t : LineTest), (s.line l).ending = none → (s.line l).exchange = none →
    (s.line l).test = some t →
    let frame :=
      lineFrame 0 (if t.index % 2 = 1 then 0x14#8 else 0x04#8) ((List.range 32).map fun p => b8 (7 * t.index + p))
    let judged (t : LineTest) (matched : Bool) (s : State) : State :=
      let u : LineTest :=
        { t with
          framesMatched := if matched then t.framesMatched + 1 else t.framesMatched
          firstMismatch := if matched ∨ t.firstMismatch.isSome then t.firstMismatch else some t.index }
      if t.index + 1 < t.count then
        s.onLine l fun ln =>
          { ln with test := some { u with phase := .gap, handed := none, timer := some ln.config.lineGap } }
      else testEnded l u .complete s
    let left := s.onLine l fun ln =>
      { ln with counters := { ln.counters with framesSent := min (ln.counters.framesSent + 1) 65535 } }
    let awaiting : LineTest :=
      { t with
        framesSent := t.framesSent + 1, charsSent := t.charsSent + 1, phase := .awaiting
        timer := some (s.line l).config.replyStart }
    (∀ bitTime,
      (∀ byte, t.phase = .sending → frame[t.charsSent]? = some byte →
        (s.line l).loopLevel bitTime =
          (false :: ((List.range 8).map fun i => byte.getLsbD i) ++ (t.charsSent == 0)
            :: List.replicate (s.line l).config.stopBits true).getD bitTime true)
      ∧ (t.phase ≠ .sending → (s.line l).loopLevel bitTime = true) ∧ (s.line l).txPin bitTime = true)
    ∧ ((s.line l).mode = .test → t.phase = .sending → t.charsSent ≤ 36 → t.delivered = false →
      let sent : Instr := if t.charsSent = 36 then .frameSent l else .characterSent l
      ∃ row u handed,
        (s.line l).receipt l ((List.range 10).map fun i => (s.line l).loopLevel (i + 1)) = some row
          ∧ exec row s = .next u ∧ (u.line l).test = some { t with delivered := true, handed }
          ∧ exec sent s = exec sent u)
    ∧ ((s.line l).mode = .test → t.phase = .sending → t.charsSent = 0 → t.delivered = false → t.handed = none →
      (s.line l).assembler = none →
      ∃ u : Nat → State, u 0 = s ∧ (∀ k < 36, exec (.characterSent l) (u k) = .next (u (k + 1)))
        ∧ exec (.frameSent l) (u 36) =
            .next
              (judged { awaiting with charsSent := 37, delivered := true, handed := some true } true
                (left.onLine l fun ln =>
                  { ln with
                    awaitsMark := false
                    counters := { ln.counters with goodFrames := min (ln.counters.goodFrames + 1) 65535 } })))
    ∧ (t.phase = .sending → t.charsSent < 36 → t.delivered = true →
      exec (.characterSent l) s =
        .next (s.onLine l fun ln =>
          { ln with test := some { t with charsSent := t.charsSent + 1, delivered := false } }))
    ∧ (t.phase = .sending → t.charsSent = 36 → t.delivered = true → t.handed = none →
      exec (.frameSent l) s = .next (left.onLine l fun ln => { ln with test := some awaiting }))
    ∧ (∀ matched, t.phase = .sending → t.charsSent = 36 → t.delivered = true → t.handed = some matched →
      exec (.frameSent l) s = .next (judged awaiting matched (left.onLine l fun ln => { ln with test := some awaiting })))
    ∧ (t.phase = .awaiting → exec (.testAwaitTimeout l) s = .next (judged t false s))
    ∧ (t.phase = .gap →
      exec (.testGapExpiry l) s =
        .next (s.onLine l fun ln =>
          { ln with
            test :=
              some
                { t with
                  index := t.index + 1, phase := .sending, charsSent := 0, delivered := false, handed := none
                  timer := none } }))
    ∧ (∀ (byte : Byte) (mark fe : Bool), (s.line l).mode = .test →
      ¬(t.phase = .sending ∧ t.delivered = false ∧ frame[t.charsSent]? = some byte ∧ mark = (t.charsSent == 0)
          ∧ fe = false) →
      ∀ c ∈ Instr.strayCharacter l byte mark fe
          :: if mark then [.addressCharacterReceived l byte fe]
            else [.frameCharacterReceived l byte fe, .lengthAbandon l byte fe, .frameReceived l byte fe],
        exec c s = .next s)
    ∧ ∀ p : PartialFrame, (s.line l).mode = .test → (s.line l).assembler = some p →
      let abandoned (held : Option PartialFrame) (ln : Line) : Line :=
        { ln with assembler := held, counters := abandonedIf true ln.counters }
      (p.timer.isSome →
        exec (.intercharacterTimeout l) s =
          .next
            (match t.phase with
            | .sending => s.onLine l fun ln =>
                { abandoned none ln with test := some { t with handed := t.handed.or (some false) } }
            | .awaiting => judged t false (s.onLine l (abandoned none))
            | .gap => s.onLine l (abandoned none)))
      ∧ ∀ byte : Byte, t.phase = .sending → t.delivered = false → frame[t.charsSent]? = some byte →
        let taken (matched : Bool) (ln : Line) : Line :=
          { ln with
            awaitsMark := false, test := some { t with delivered := true, handed := t.handed.or (some matched) } }
        (t.charsSent ≠ 0 → p.chars.length = 2 → 32 < byte.toNat →
          exec (.lengthAbandon l byte false) s = .next (s.onLine l fun ln => taken false (abandoned none ln)))
        ∧ (t.charsSent = 0 →
          exec (.addressCharacterReceived l byte false) s =
            .next (s.onLine l fun ln =>
              taken false (abandoned (some ⟨[byte], false, some (s.line l).config.intercharacter⟩) ln)))
        ∧ (t.charsSent ≠ 0 → p.chars.length = 4 + (p.chars.getD 2 0).toNat →
          let h : HandedUp := ⟨p.chars ++ [byte], p.framing, none⟩
          let sound := h.framing = false ∧ h.crcMatches ∧ h.address = 0 ∧ h.kindCode = 4
            ∧ h.toggle = (t.index % 2 == 1) ∧ h.resync = false ∧ h.length = 32
            ∧ h.payload = (List.range 32).map fun p => b8 (7 * t.index + p)
          exec (.frameReceived l byte false) s =
            .next (s.onLine l fun ln =>
              taken (decide sound)
                { ln with
                  assembler := none
                  counters :=
                    { ln.counters with
                      goodFrames :=
                        if h.crcMatches ∧ h.framing = false then min (ln.counters.goodFrames + 1) 65535
                        else ln.counters.goodFrames
                      checkErrors :=
                        if h.crcMatches then ln.counters.checkErrors
                        else min (ln.counters.checkErrors + 1) 65535 } }))

/-! ### Station timers and notices -/

/-- R79, R63, R82: when a running poll timer expires it stops and the due mark is set; an expired holdoff timer stops;
an expired probe timer stays at 0. Nothing else changes. (A running timer is taken to expire whatever time it has left:
the model's choice, assumption 20.) R155, R156, R154, R11, R127: with a free unreserved slot one notice is drained: line
A's, else line B's, else the one of the lowest station. Its report joins the queue's tail with the state as it stands;
the flag is cleared, and of a station the change count becomes 0; the cause is kept. With no free unreserved slot
nothing is drained. -/
def Obligations.StationTimersExpireAndNoticesDrain : Prop :=
  (∀ (s : State) (n : Nat) (e : Station), s.station n = some e →
      (e.pollTimer.isSome →
        exec (.pollTimerExpiry n) s = .next (s.setStation n (some { e with pollTimer := none, pollDue := true })))
      ∧ (e.holdoffTimer.isSome →
        exec (.holdoffTimerExpiry n) s = .next (s.setStation n (some { e with holdoffTimer := none })))
      ∧ (e.probeTimer.isSome →
        exec (.probeTimerExpiry n) s = .next (s.setStation n (some { e with probeTimer := some 0 }))))
  ∧ (∀ s : State,
      let reported (report : Report) : State :=
        { s with queue := { s.queue with
          entries := s.queue.entries ++ [⟨s.queue.seqCounter, report, false⟩], seqCounter := s.queue.seqCounter + 1 } }
      (128 ≤ s.queue.entries.length + s.queue.reservations → exec .noticeDrain s = .next s)
      ∧ (s.queue.entries.length + s.queue.reservations < 128 →
        (∀ l, (s.line l).notice = true → (l = .b → s.lineA.notice = false) →
          exec .noticeDrain s =
            .next ((reported (.lineState l (s.line l).mode (s.line l).stuck (s.line l).noticeCause)).onLine l fun ln =>
              { ln with notice := false }))
        ∧ (∀ n e, s.lineA.notice = false → s.lineB.notice = false → s.station n = some e → e.notice = true →
            (∀ m < n, ∀ f, s.station m = some f → f.notice = false) →
            exec .noticeDrain s =
              .next ((reported (.stationState n e.state e.current e.changeCount e.lastCause)).setStation n
                (some { e with notice := false, changeCount := 0 })))))

/-! ### What every step keeps -/

/-- R148: the numbers of the queue's entries stay consecutive, and the counter holds the number after the last. -/
def Obligations.EveryStepKeepsTheNumbering : Prop :=
  ∀ s t : State, s.queue.Numbered → step s = .next t → t.queue.Numbered

/-- R146, R150, R93, R94, R41, R52: entries and reservations together never exceed 128, every reservation has its one
holder, live records have distinct tags and number at most 64, and at most 4 of one station, and the exchange records
are sound; all this while the line columns are sound, which every step keeps too. -/
def Obligations.EveryStepKeepsTheReservations : Prop :=
  ∀ s t : State, s.lineA.Sound → s.lineB.Sound → s.Reserved → step s = .next t → t.Reserved

/-- R149, R171 to R176: the sent entries stay an unbroken run from the head, at most the window's number, a CLOSED
session has none and a STALLED one some, the acknowledgement timer runs only while there is one, and a run stands at one.
(That only an OPEN session has a run, none standing in STALLED, is the model's reading, assumption 15.) -/
def Obligations.EveryStepKeepsTheSession : Prop :=
  ∀ s t : State, s.queue.Numbered → s.Reserved → s.SessionSound → step s = .next t → t.SessionSound

/-- R24, R25, R30, R34, R41, R125, R126, R133, R139: exchanges and scans stay in ACTIVE without STUCK, a line test in
TEST, STUCK in ACTIVE and MONITOR, frames out of OFF, and the driver with TRANSMIT, GUARD and an ending. (The clauses on
an ending are the model's: that a mode change, never one to TEST, or a line reset waits at it is assumption 7, and that
a character left by RESTART stands without an exchange, one of a line test without the driver, is assumption 9.) -/
def Obligations.EveryStepKeepsTheLinesSound : Prop :=
  ∀ s t : State, s.lineA.Sound → s.lineB.Sound → step s = .next t → t.lineA.Sound ∧ t.lineB.Sound

/-- R5, R81, R4: each probe list keeps holding, once each, the stations in PROBING or OFFLINE whose current line it is,
and the addresses that the defined entries claim on a line stay distinct. -/
def Obligations.EveryStepKeepsTheProbeLists : Prop :=
  ∀ s t : State, step s = .next t →
    (s.ProbeListsHold → t.ProbeListsHold) ∧ (s.AddressesDistinct → t.AddressesDistinct)

/-- R9, R10, R39, R63, R109, R166: every counter stays in its range: those the host reads at most 65535, change counts
255, consecutive failures and busy streaks 15. -/
def Obligations.EveryStepKeepsCountersInRange : Prop :=
  ∀ s t : State, s.CountersInRange → step s = .next t → t.CountersInRange

/-- The state after reset has all the properties that every step keeps. -/
def Obligations.ResetIsSound : Prop :=
  State.reset.queue.Numbered ∧ State.reset.Reserved ∧ State.reset.SessionSound ∧ State.reset.lineA.Sound
    ∧ State.reset.lineB.Sound ∧ State.reset.ProbeListsHold ∧ State.reset.AddressesDistinct
    ∧ State.reset.CountersInRange
end

