-- ==== Sys2Proof/Laws/Characters.lean ====
section
/-! SUPPORT. Characters on the wires: a byte's data bits give the byte back. -/

namespace Sys2Proof.Machine

/-- R22, R28: the data bits sampled of a byte sent are that byte. -/
@[simp] theorem dataByte_dataBits (byte : Byte) : dataByte (dataBits byte) = byte := by
  revert byte
  decide +kernel

@[simp] theorem dataBits_length (byte : Byte) : (dataBits byte).length = 8 := by simp [dataBits]

/-- R22: a line character has ten levels before its stop bits. -/
@[simp] theorem LineCharacter.levels_length (stopBits : Nat) (c : LineCharacter) :
    (c.levels stopBits).length = 10 + stopBits := by
  simp only [LineCharacter.levels, List.length_cons, List.length_append, dataBits_length, List.length_replicate]
  omega

/-- R162: a host-link character has ten levels. -/
@[simp] theorem hostCharacterLevels_length (byte : Byte) : (hostCharacterLevels byte).length = 10 := by
  simp [hostCharacterLevels]

end Sys2Proof.Machine
end

