-- ==== Sys2Proof/Laws/State.lean ====
section
/-! SUPPORT. One lemma per part of the state and way of changing it, so that no proof unfolds a record update. -/

namespace Sys2Proof.Machine

/-! ### Lines -/

@[simp] theorem State.line_onLine_same (s : State) (l : LineId) (f : Line → Line) :
    (s.onLine l f).line l = f (s.line l) := by cases l <;> rfl

theorem State.line_onLine (s : State) (l m : LineId) (f : Line → Line) :
    (s.onLine l f).line m = if m = l then f (s.line m) else s.line m := by cases l <;> cases m <;> rfl

@[simp] theorem State.line_onLine_other (s : State) (l : LineId) (f : Line → Line) :
    (s.onLine l f).line l.other = s.line l.other := by cases l <;> rfl

@[simp] theorem State.onLine_onLine (s : State) (l : LineId) (f g : Line → Line) :
    (s.onLine l f).onLine l g = s.onLine l (fun ln => g (f ln)) := by cases l <;> rfl

@[simp] theorem State.onLine_id (s : State) (l : LineId) : s.onLine l (fun ln => ln) = s := by cases l <;> rfl

@[simp] theorem State.onLine_stations (s : State) (l : LineId) (f : Line → Line) :
    (s.onLine l f).stations = s.stations := by cases l <;> rfl
@[simp] theorem State.onLine_station (s : State) (l : LineId) (f : Line → Line) (n : Nat) :
    (s.onLine l f).station n = s.station n := by cases l <;> rfl
@[simp] theorem State.onLine_pool (s : State) (l : LineId) (f : Line → Line) : (s.onLine l f).pool = s.pool := by
  cases l <;> rfl
@[simp] theorem State.onLine_queue (s : State) (l : LineId) (f : Line → Line) : (s.onLine l f).queue = s.queue := by
  cases l <;> rfl
@[simp] theorem State.onLine_link (s : State) (l : LineId) (f : Line → Line) : (s.onLine l f).link = s.link := by
  cases l <;> rfl
@[simp] theorem State.onLine_outputs (s : State) (l : LineId) (f : Line → Line) :
    (s.onLine l f).outputs = s.outputs := by cases l <;> rfl
@[simp] theorem State.onLine_inReset (s : State) (l : LineId) (f : Line → Line) :
    (s.onLine l f).inReset = s.inReset := by cases l <;> rfl
@[simp] theorem State.onLine_freeCount (s : State) (l : LineId) (f : Line → Line) :
    (s.onLine l f).freeCount = s.freeCount := by cases l <;> rfl
@[simp] theorem State.onLine_pending (s : State) (l : LineId) (f : Line → Line) :
    (s.onLine l f).pending = s.pending := by cases l <;> rfl

/-! ### Station entries -/

@[simp] theorem State.station_setStation_same (s : State) (n : Nat) (e : Option Station) (h : n < 48) :
    (s.setStation n e).station n = e := by simp [State.setStation, State.station, h]

@[simp] theorem State.station_setStation_ne (s : State) {m n : Nat} (e : Option Station) (h : m ≠ n) :
    (s.setStation n e).station m = s.station m := by
  unfold State.setStation State.station
  by_cases hn : n < 48 <;> by_cases hm : m < 48 <;> simp [hn, hm]
  exact Vector.getElem_set_ne _ _ (Ne.symm h)

theorem State.station_lt {s : State} {n : Nat} {e : Station} (h : s.station n = some e) : n < 48 := by
  unfold State.station at h
  split at h
  · assumption
  · cases h

@[simp] theorem State.setStation_line (s : State) (n : Nat) (e : Option Station) (l : LineId) :
    (s.setStation n e).line l = s.line l := by unfold State.setStation; split <;> rfl
@[simp] theorem State.setStation_lineA (s : State) (n : Nat) (e : Option Station) :
    (s.setStation n e).lineA = s.lineA := by unfold State.setStation; split <;> rfl
@[simp] theorem State.setStation_lineB (s : State) (n : Nat) (e : Option Station) :
    (s.setStation n e).lineB = s.lineB := by unfold State.setStation; split <;> rfl
@[simp] theorem State.setStation_pool (s : State) (n : Nat) (e : Option Station) :
    (s.setStation n e).pool = s.pool := by unfold State.setStation; split <;> rfl
@[simp] theorem State.setStation_queue (s : State) (n : Nat) (e : Option Station) :
    (s.setStation n e).queue = s.queue := by unfold State.setStation; split <;> rfl
@[simp] theorem State.setStation_link (s : State) (n : Nat) (e : Option Station) :
    (s.setStation n e).link = s.link := by unfold State.setStation; split <;> rfl
@[simp] theorem State.setStation_outputs (s : State) (n : Nat) (e : Option Station) :
    (s.setStation n e).outputs = s.outputs := by unfold State.setStation; split <;> rfl
@[simp] theorem State.setStation_inReset (s : State) (n : Nat) (e : Option Station) :
    (s.setStation n e).inReset = s.inReset := by unfold State.setStation; split <;> rfl
@[simp] theorem State.setStation_freeCount (s : State) (n : Nat) (e : Option Station) :
    (s.setStation n e).freeCount = s.freeCount := by unfold State.setStation; split <;> rfl
@[simp] theorem State.setStation_pending (s : State) (n : Nat) (e : Option Station) :
    (s.setStation n e).pending = s.pending := by unfold State.setStation; split <;> rfl

@[simp] theorem State.setStation_setStation (s : State) (n : Nat) (e f : Option Station) :
    (s.setStation n e).setStation n f = s.setStation n f := by
  unfold State.setStation
  by_cases h : n < 48 <;> simp [h]

/-- What `onStation` does to a defined entry. -/
theorem State.onStation_of_station {s : State} {n : Nat} {e : Station} (h : s.station n = some e)
    (f : Station → Station) : s.onStation n f = s.setStation n (some (f e)) := by simp [State.onStation, h]

/-- An undefined entry has nothing to change. -/
theorem State.onStation_of_none {s : State} {n : Nat} (h : s.station n = none) (f : Station → Station) :
    s.onStation n f = s := by simp [State.onStation, h]

@[simp] theorem State.station_onStation_same (s : State) (n : Nat) (f : Station → Station) :
    (s.onStation n f).station n = (s.station n).map f := by
  cases h : s.station n with
  | none => rw [State.onStation_of_none h, h]; rfl
  | some e => rw [State.onStation_of_station h, State.station_setStation_same _ _ _ (State.station_lt h)]; rfl

@[simp] theorem State.station_onStation_ne (s : State) {m n : Nat} (f : Station → Station) (h : m ≠ n) :
    (s.onStation n f).station m = s.station m := by unfold State.onStation; split <;> simp [h]

@[simp] theorem State.onStation_line (s : State) (n : Nat) (f : Station → Station) (l : LineId) :
    (s.onStation n f).line l = s.line l := by unfold State.onStation; split <;> simp
@[simp] theorem State.onStation_lineA (s : State) (n : Nat) (f : Station → Station) :
    (s.onStation n f).lineA = s.lineA := by unfold State.onStation; split <;> simp
@[simp] theorem State.onStation_lineB (s : State) (n : Nat) (f : Station → Station) :
    (s.onStation n f).lineB = s.lineB := by unfold State.onStation; split <;> simp
@[simp] theorem State.onStation_pool (s : State) (n : Nat) (f : Station → Station) :
    (s.onStation n f).pool = s.pool := by unfold State.onStation; split <;> simp
@[simp] theorem State.onStation_queue (s : State) (n : Nat) (f : Station → Station) :
    (s.onStation n f).queue = s.queue := by unfold State.onStation; split <;> simp
@[simp] theorem State.onStation_link (s : State) (n : Nat) (f : Station → Station) :
    (s.onStation n f).link = s.link := by unfold State.onStation; split <;> simp
@[simp] theorem State.onStation_outputs (s : State) (n : Nat) (f : Station → Station) :
    (s.onStation n f).outputs = s.outputs := by unfold State.onStation; split <;> simp
@[simp] theorem State.onStation_inReset (s : State) (n : Nat) (f : Station → Station) :
    (s.onStation n f).inReset = s.inReset := by unfold State.onStation; split <;> simp
@[simp] theorem State.onStation_freeCount (s : State) (n : Nat) (f : Station → Station) :
    (s.onStation n f).freeCount = s.freeCount := by unfold State.onStation; split <;> simp
@[simp] theorem State.onStation_pending (s : State) (n : Nat) (f : Station → Station) :
    (s.onStation n f).pending = s.pending := by unfold State.onStation; split <;> simp

/-! ### The stores and the host link -/

@[simp] theorem State.onPool_pool (s : State) (f : Pool → Pool) : (s.onPool f).pool = f s.pool := rfl
@[simp] theorem State.onPool_line (s : State) (f : Pool → Pool) (l : LineId) : (s.onPool f).line l = s.line l := rfl
@[simp] theorem State.onPool_stations (s : State) (f : Pool → Pool) : (s.onPool f).stations = s.stations := rfl
@[simp] theorem State.onPool_station (s : State) (f : Pool → Pool) (n : Nat) : (s.onPool f).station n = s.station n := rfl
@[simp] theorem State.onPool_queue (s : State) (f : Pool → Pool) : (s.onPool f).queue = s.queue := rfl
@[simp] theorem State.onPool_link (s : State) (f : Pool → Pool) : (s.onPool f).link = s.link := rfl
@[simp] theorem State.onPool_outputs (s : State) (f : Pool → Pool) : (s.onPool f).outputs = s.outputs := rfl
@[simp] theorem State.onPool_pending (s : State) (f : Pool → Pool) : (s.onPool f).pending = s.pending := rfl

@[simp] theorem State.onQueue_queue (s : State) (f : ReportQueue → ReportQueue) : (s.onQueue f).queue = f s.queue := rfl
@[simp] theorem State.onQueue_line (s : State) (f : ReportQueue → ReportQueue) (l : LineId) :
    (s.onQueue f).line l = s.line l := rfl
@[simp] theorem State.onQueue_stations (s : State) (f : ReportQueue → ReportQueue) :
    (s.onQueue f).stations = s.stations := rfl
@[simp] theorem State.onQueue_station (s : State) (f : ReportQueue → ReportQueue) (n : Nat) :
    (s.onQueue f).station n = s.station n := rfl
@[simp] theorem State.onQueue_pool (s : State) (f : ReportQueue → ReportQueue) : (s.onQueue f).pool = s.pool := rfl
@[simp] theorem State.onQueue_link (s : State) (f : ReportQueue → ReportQueue) : (s.onQueue f).link = s.link := rfl
@[simp] theorem State.onQueue_outputs (s : State) (f : ReportQueue → ReportQueue) : (s.onQueue f).outputs = s.outputs := rfl
@[simp] theorem State.onQueue_pending (s : State) (f : ReportQueue → ReportQueue) : (s.onQueue f).pending = s.pending := rfl

@[simp] theorem State.onLink_link (s : State) (f : Link → Link) : (s.onLink f).link = f s.link := rfl
@[simp] theorem State.onLink_line (s : State) (f : Link → Link) (l : LineId) : (s.onLink f).line l = s.line l := rfl
@[simp] theorem State.onLink_stations (s : State) (f : Link → Link) : (s.onLink f).stations = s.stations := rfl
@[simp] theorem State.onLink_station (s : State) (f : Link → Link) (n : Nat) : (s.onLink f).station n = s.station n := rfl
@[simp] theorem State.onLink_pool (s : State) (f : Link → Link) : (s.onLink f).pool = s.pool := rfl
@[simp] theorem State.onLink_queue (s : State) (f : Link → Link) : (s.onLink f).queue = s.queue := rfl
@[simp] theorem State.onLink_outputs (s : State) (f : Link → Link) : (s.onLink f).outputs = s.outputs := rfl
@[simp] theorem State.onLink_pending (s : State) (f : Link → Link) : (s.onLink f).pending = s.pending := rfl

@[simp] theorem State.onSession_session (s : State) (f : Session → Session) :
    (s.onSession f).link.session = f s.link.session := rfl
@[simp] theorem State.onSession_line (s : State) (f : Session → Session) (l : LineId) :
    (s.onSession f).line l = s.line l := rfl
@[simp] theorem State.onSession_station (s : State) (f : Session → Session) (n : Nat) :
    (s.onSession f).station n = s.station n := rfl
@[simp] theorem State.onSession_pool (s : State) (f : Session → Session) : (s.onSession f).pool = s.pool := rfl
@[simp] theorem State.onSession_queue (s : State) (f : Session → Session) : (s.onSession f).queue = s.queue := rfl
@[simp] theorem State.onSession_pending (s : State) (f : Session → Session) : (s.onSession f).pending = s.pending := rfl

end Sys2Proof.Machine
end

