-- ==== Sys2Proof/Laws/Reports.lean ====
section
/-! SUPPORT. What the operations on the report queue and on the command pool do, once each: the queue or pool they
leave, and all that they leave alone. -/

namespace Sys2Proof.Machine

/-! ### The report queue -/

@[simp] theorem enqueue_queue (r : Report) (s : State) :
    (enqueue r s).queue
      = { s.queue with
          entries := s.queue.entries ++ [⟨s.queue.seqCounter, r, false⟩], seqCounter := s.queue.seqCounter + 1 } := rfl
@[simp] theorem enqueue_line (r : Report) (s : State) (l : LineId) : (enqueue r s).line l = s.line l := rfl
@[simp] theorem enqueue_station (r : Report) (s : State) (n : Nat) : (enqueue r s).station n = s.station n := rfl
@[simp] theorem enqueue_pool (r : Report) (s : State) : (enqueue r s).pool = s.pool := rfl
@[simp] theorem enqueue_link (r : Report) (s : State) : (enqueue r s).link = s.link := rfl
@[simp] theorem enqueue_outputs (r : Report) (s : State) : (enqueue r s).outputs = s.outputs := rfl
@[simp] theorem enqueue_pending (r : Report) (s : State) : (enqueue r s).pending = s.pending := rfl

@[simp] theorem grant_queue (s : State) :
    (grant s).queue = { s.queue with reservations := s.queue.reservations + 1 } := rfl
@[simp] theorem grant_line (s : State) (l : LineId) : (grant s).line l = s.line l := rfl
@[simp] theorem grant_station (s : State) (n : Nat) : (grant s).station n = s.station n := rfl
@[simp] theorem grant_pool (s : State) : (grant s).pool = s.pool := rfl
@[simp] theorem grant_link (s : State) : (grant s).link = s.link := rfl
@[simp] theorem grant_outputs (s : State) : (grant s).outputs = s.outputs := rfl
@[simp] theorem grant_pending (s : State) : (grant s).pending = s.pending := rfl

@[simp] theorem release_queue (s : State) :
    (release s).queue = { s.queue with reservations := s.queue.reservations - 1 } := rfl
@[simp] theorem release_line (s : State) (l : LineId) : (release s).line l = s.line l := rfl
@[simp] theorem release_station (s : State) (n : Nat) : (release s).station n = s.station n := rfl
@[simp] theorem release_pool (s : State) : (release s).pool = s.pool := rfl
@[simp] theorem release_link (s : State) : (release s).link = s.link := rfl
@[simp] theorem release_outputs (s : State) : (release s).outputs = s.outputs := rfl
@[simp] theorem release_pending (s : State) : (release s).pending = s.pending := rfl

/-- R152: a conversion moves one unit from the reservations to the entries. -/
@[simp] theorem convert_queue (r : Report) (s : State) :
    (convert r s).queue
      = { entries := s.queue.entries ++ [⟨s.queue.seqCounter, r, false⟩]
          reservations := s.queue.reservations - 1
          seqCounter := s.queue.seqCounter + 1 } := rfl
@[simp] theorem convert_line (r : Report) (s : State) (l : LineId) : (convert r s).line l = s.line l := rfl
@[simp] theorem convert_station (r : Report) (s : State) (n : Nat) : (convert r s).station n = s.station n := rfl
@[simp] theorem convert_pool (r : Report) (s : State) : (convert r s).pool = s.pool := rfl
@[simp] theorem convert_link (r : Report) (s : State) : (convert r s).link = s.link := rfl
@[simp] theorem convert_outputs (r : Report) (s : State) : (convert r s).outputs = s.outputs := rfl
@[simp] theorem convert_pending (r : Report) (s : State) : (convert r s).pending = s.pending := rfl

/-- R152: the sum of entries and reservations is unchanged by a conversion of a held reservation. -/
theorem convert_load {r : Report} {s : State} (h : 0 < s.queue.reservations) :
    (convert r s).queue.load = s.queue.load := by simp [ReportQueue.load]; omega

/-! ### Records -/

@[simp] theorem onRecord_pool (tag : Half) (f : CommandRecord → CommandRecord) (s : State) :
    (onRecord tag f s).pool
      = { s.pool with records := s.pool.records.map fun r => if r.tag = tag then f r else r } := rfl
@[simp] theorem onRecord_queue (tag : Half) (f : CommandRecord → CommandRecord) (s : State) :
    (onRecord tag f s).queue = s.queue := rfl
@[simp] theorem onRecord_line (tag : Half) (f : CommandRecord → CommandRecord) (s : State) (l : LineId) :
    (onRecord tag f s).line l = s.line l := rfl
@[simp] theorem onRecord_station (tag : Half) (f : CommandRecord → CommandRecord) (s : State) (n : Nat) :
    (onRecord tag f s).station n = s.station n := rfl
@[simp] theorem onRecord_link (tag : Half) (f : CommandRecord → CommandRecord) (s : State) :
    (onRecord tag f s).link = s.link := rfl
@[simp] theorem onRecord_outputs (tag : Half) (f : CommandRecord → CommandRecord) (s : State) :
    (onRecord tag f s).outputs = s.outputs := rfl
@[simp] theorem onRecord_pending (tag : Half) (f : CommandRecord → CommandRecord) (s : State) :
    (onRecord tag f s).pending = s.pending := rfl

@[simp] theorem resetBusyStreak_queue (r : CommandRecord) (b : Bool) (s : State) :
    (resetBusyStreak r b s).queue = s.queue := by unfold resetBusyStreak; split <;> try split
                                                  all_goals simp
@[simp] theorem resetBusyStreak_pool (r : CommandRecord) (b : Bool) (s : State) :
    (resetBusyStreak r b s).pool = s.pool := by unfold resetBusyStreak; split <;> try split
                                                all_goals simp
@[simp] theorem resetBusyStreak_line (r : CommandRecord) (b : Bool) (s : State) (l : LineId) :
    (resetBusyStreak r b s).line l = s.line l := by unfold resetBusyStreak; split <;> try split
                                                    all_goals simp
@[simp] theorem resetBusyStreak_link (r : CommandRecord) (b : Bool) (s : State) :
    (resetBusyStreak r b s).link = s.link := by unfold resetBusyStreak; split <;> try split
                                                all_goals simp
@[simp] theorem resetBusyStreak_outputs (r : CommandRecord) (b : Bool) (s : State) :
    (resetBusyStreak r b s).outputs = s.outputs := by unfold resetBusyStreak; split <;> try split
                                                      all_goals simp
@[simp] theorem resetBusyStreak_pending (r : CommandRecord) (b : Bool) (s : State) :
    (resetBusyStreak r b s).pending = s.pending := by unfold resetBusyStreak; split <;> try split
                                                      all_goals simp

/-- R99: the queue after a completion. -/
@[simp] theorem completeRecord_queue (r : CommandRecord) (o : CommandOutcome) (d : List Byte) (s : State) :
    (completeRecord r o d s).queue
      = { entries := s.queue.entries ++ [⟨s.queue.seqCounter, commandDone r o d, false⟩]
          reservations := s.queue.reservations - 1
          seqCounter := s.queue.seqCounter + 1 } := by simp [completeRecord]
/-- R99: the pool after a completion. -/
@[simp] theorem completeRecord_pool (r : CommandRecord) (o : CommandOutcome) (d : List Byte) (s : State) :
    (completeRecord r o d s).pool = { s.pool with records := s.pool.records.eraseP (·.tag == r.tag) } := by
  simp [completeRecord]
@[simp] theorem completeRecord_line (r : CommandRecord) (o : CommandOutcome) (d : List Byte) (s : State) (l : LineId) :
    (completeRecord r o d s).line l = s.line l := by simp [completeRecord]
@[simp] theorem completeRecord_link (r : CommandRecord) (o : CommandOutcome) (d : List Byte) (s : State) :
    (completeRecord r o d s).link = s.link := by simp [completeRecord]
@[simp] theorem completeRecord_outputs (r : CommandRecord) (o : CommandOutcome) (d : List Byte) (s : State) :
    (completeRecord r o d s).outputs = s.outputs := by simp [completeRecord]
@[simp] theorem completeRecord_pending (r : CommandRecord) (o : CommandOutcome) (d : List Byte) (s : State) :
    (completeRecord r o d s).pending = s.pending := by simp [completeRecord]

/-- R99: of the station table a completion changes at most a busy streak, which becomes 0. -/
theorem completeRecord_station (r : CommandRecord) (o : CommandOutcome) (d : List Byte) (s : State) (n : Nat) :
    (completeRecord r o d s).station n = s.station n
      ∨ (completeRecord r o d s).station n = (s.station n).map fun e => { e with busyStreak := 0 } := by
  unfold completeRecord resetBusyStreak
  split
  · exact .inl rfl
  · rename_i m _
    split
    · by_cases h : n = m
      · subst h; exact .inr (by simp)
      · exact .inl (by simp [h])
    · exact .inl rfl

@[simp] theorem completeRecords_line (rs : List CommandRecord) (o : CommandOutcome) (s : State) (l : LineId) :
    (completeRecords rs o s).line l = s.line l := by
  unfold completeRecords
  induction rs generalizing s with
  | nil => rfl
  | cons r rs ih => simp [ih]
@[simp] theorem completeRecords_link (rs : List CommandRecord) (o : CommandOutcome) (s : State) :
    (completeRecords rs o s).link = s.link := by
  unfold completeRecords
  induction rs generalizing s with
  | nil => rfl
  | cons r rs ih => simp [ih]
@[simp] theorem completeRecords_outputs (rs : List CommandRecord) (o : CommandOutcome) (s : State) :
    (completeRecords rs o s).outputs = s.outputs := by
  unfold completeRecords
  induction rs generalizing s with
  | nil => rfl
  | cons r rs ih => simp [ih]
@[simp] theorem completeRecords_pending (rs : List CommandRecord) (o : CommandOutcome) (s : State) :
    (completeRecords rs o s).pending = s.pending := by
  unfold completeRecords
  induction rs generalizing s with
  | nil => rfl
  | cons r rs ih => simp [ih]

/-- R102: of the station table a batch of completions changes at most busy streaks, which become 0. -/
theorem completeRecords_station (rs : List CommandRecord) (o : CommandOutcome) (s : State) (n : Nat) :
    (completeRecords rs o s).station n = s.station n
      ∨ (completeRecords rs o s).station n = (s.station n).map fun e => { e with busyStreak := 0 } := by
  unfold completeRecords
  induction rs generalizing s with
  | nil => exact .inl rfl
  | cons r rs ih =>
    simp only [List.foldl_cons]
    rcases ih (completeRecord r o [] s) with h | h <;> rcases completeRecord_station r o [] s n with g | g
    · exact .inl (h.trans g)
    · exact .inr (h.trans g)
    · exact .inr (by rw [h, g])
    · refine .inr ?_
      rw [h, g]
      cases s.station n <;> rfl

end Sys2Proof.Machine
end

