-- ==== Sys2Proof/Laws/Completions.lean ====
section
/-! SUPPORT. What the operations on station entries, probe lists and command records come to, in the terms of the
statements: a station entering PROBING or leaving its list, and records completing, alone and together. -/

namespace Sys2Proof.Machine

/-! ### Station entries and probe lists -/

theorem State.setStation_station (s : State) (n : Nat) : s.setStation n (s.station n) = s := by
  unfold State.setStation State.station
  split
  · simp
  · rfl

theorem State.onStation_onStation (s : State) (n : Nat) (f g : Station → Station) :
    (s.onStation n f).onStation n g = s.onStation n (fun e => g (f e)) := by
  cases h : s.station n with
  | none => rw [State.onStation_of_none h, State.onStation_of_none h, State.onStation_of_none h]
  | some e =>
    rw [State.onStation_of_station h, State.onStation_of_station h,
      State.onStation_of_station (State.station_setStation_same _ _ _ (State.station_lt h))]
    simp

theorem State.onStation_id (s : State) (n : Nat) : s.onStation n (fun e => e) = s := by
  cases h : s.station n with
  | none => exact State.onStation_of_none h _
  | some e => rw [State.onStation_of_station h, ← h, State.setStation_station]

@[simp] theorem probeListed_station (l : Option LineId) (n m : Nat) (s : State) :
    (probeListed l n s).station m = s.station m := rfl

theorem probeListed_setStation (l : Option LineId) (n m : Nat) (e : Option Station) (s : State) :
    (probeListed l n s).setStation m e = probeListed l n (s.setStation m e) := by
  unfold State.setStation
  split <;> rfl

theorem probeListed_onStation (l : Option LineId) (n m : Nat) (f : Station → Station) (s : State) :
    (probeListed l n s).onStation m f = probeListed l n (s.onStation m f) := by
  unfold State.onStation
  simp only [probeListed_station]
  split <;> simp [probeListed_setStation]

/-- R81: leaving the probe list that holds the station. -/
theorem leaveProbeLists_eq (n : Nat) (s : State) : leaveProbeLists n s = probeListed none n s := by
  simp [leaveProbeLists, probeListed]

/-- R6: entering PROBING. -/
theorem enterProbing_eq {n : Nat} {e : Station} {s : State} (h : s.station n = some e) :
    enterProbing n s = probeListed (some e.current) n (s.setStation n (some e.toProbing)) := by
  unfold enterProbing
  rw [h]
  simp only
  unfold joinProbeList leaveProbeLists probeListed State.onLine
  cases e.current <;> simp

/-- R7: entering DISABLED. -/
theorem enterDisabled_eq {n : Nat} {e : Station} {s : State} (h : s.station n = some e) :
    enterDisabled n s = probeListed none n (s.setStation n (some e.toDisabled)) := by
  unfold enterDisabled
  rw [State.onStation_of_station h, leaveProbeLists_eq]

/-! ### One completion -/

theorem eraseP_tag_eq_filter {rs : List CommandRecord} (tag : Half) (h : (rs.map (·.tag)).Nodup) :
    rs.eraseP (·.tag == tag) = rs.filter (fun q => q.tag != tag) := by
  induction rs with
  | nil => rfl
  | cons a rs ih =>
    simp only [List.map_cons, List.nodup_cons] at h
    by_cases ha : a.tag = tag
    · have : rs.filter (fun q => q.tag != tag) = rs := by
        apply List.filter_eq_self.2
        intro q hq
        simp only [bne_iff_ne, ne_eq]
        rintro rfl
        exact h.1 (by rw [ha]; exact List.mem_map_of_mem hq)
      simp [ha, this]
    · simp [ha, ih h.2]

/-- R99: one completion, up to the busy streak of the record's station. -/
theorem completeRecord_eq (r : CommandRecord) (o : CommandOutcome) (d : List Byte) {s : State} (h : TagsDistinct s) :
    completeRecord r o d s = resetBusyStreak r (s.pool.isOldest r) (recordDone r o d s) := by
  unfold completeRecord recordDone
  congr 1
  simp only [convert, release, enqueue, State.onQueue, State.onPool, converted]
  rw [eraseP_tag_eq_filter _ h]
  rfl

@[simp] theorem recordDone_station (r : CommandRecord) (o : CommandOutcome) (d : List Byte) (s : State) (n : Nat) :
    (recordDone r o d s).station n = s.station n := rfl
@[simp] theorem recordsDone_station (rs : List CommandRecord) (o : CommandOutcome) (s : State) (n : Nat) :
    (recordsDone rs o s).station n = s.station n := rfl

theorem recordDone_onStation (r : CommandRecord) (o : CommandOutcome) (d : List Byte) (s : State) (n : Nat)
    (f : Station → Station) : recordDone r o d (s.onStation n f) = (recordDone r o d s).onStation n f := by
  simp only [State.onStation, State.setStation, recordDone_station]
  cases s.station n with
  | none => rfl
  | some e => simp only; split <;> rfl

theorem recordsDone_onStation (rs : List CommandRecord) (o : CommandOutcome) (s : State) (n : Nat)
    (f : Station → Station) : recordsDone rs o (s.onStation n f) = (recordsDone rs o s).onStation n f := by
  simp only [State.onStation, State.setStation, recordsDone_station]
  cases s.station n with
  | none => rfl
  | some e => simp only; split <;> rfl

theorem recordDone_tagsDistinct (r : CommandRecord) (o : CommandOutcome) (d : List Byte) {s : State}
    (h : TagsDistinct s) : TagsDistinct (recordDone r o d s) := by
  show (List.map _ (List.filter _ _)).Nodup
  exact (List.filter_sublist.map _).nodup h

/-! ### Several completions (R102) -/

theorem recordsDone_nil (o : CommandOutcome) (s : State) : recordsDone [] o s = s := by simp [recordsDone]

theorem recordsDone_cons (r : CommandRecord) (rs : List CommandRecord) (o : CommandOutcome) (s : State) :
    recordsDone (r :: rs) o s = recordsDone rs o (recordDone r o [] s) := by
  unfold recordsDone recordDone converted
  simp only [List.filter_filter, List.map_cons, List.contains_cons, Bool.not_or, List.length_cons, List.mapIdx_cons,
    List.append_assoc, List.cons_append, List.nil_append]
  have e1 : s.queue.seqCounter + BitVec.ofNat 16 0 = s.queue.seqCounter := by simp
  have e2 : ∀ i, s.queue.seqCounter + BitVec.ofNat 16 (i + 1) = s.queue.seqCounter + 1 + BitVec.ofNat 16 i := by
    intro i
    apply BitVec.eq_of_toNat_eq
    simp [BitVec.toNat_add]
    omega
  simp only [e1, e2]
  congr 2
  · congr 1
    ext q
    rw [Bool.and_comm]
    rfl
  · rw [Nat.sub_sub, Nat.add_comm 1]

/-- R99: what a completion does to the busy streak: nothing, or it becomes 0. -/
theorem completeRecord_eq_onStation {r : CommandRecord} {n : Nat} (o : CommandOutcome) (d : List Byte) {s : State}
    (h : TagsDistinct s) (hr : r.station = some n) :
    ∃ g : Station → Station, (∀ e, g e = e ∨ g e = { e with busyStreak := 0 })
      ∧ (s.pool.oldestOf n = some r.tag → g = fun e => { e with busyStreak := 0 })
      ∧ completeRecord r o d s = (recordDone r o d s).onStation n g := by
  rw [completeRecord_eq _ _ _ h]
  unfold resetBusyStreak
  rw [hr]
  simp only
  split
  · exact ⟨_, fun e => .inr rfl, fun _ => rfl, rfl⟩
  · rename_i hx
    refine ⟨id, fun e => .inl rfl, ?_, (State.onStation_id _ _).symm⟩
    intro ho
    simp [Pool.isOldest, hr, ho] at hx

/-- R102, R99: records of one station that complete together: each has left the pool and become its report in their
order, and of the station table at most the station's busy streak has changed, to 0; it is 0 when the first of them is
the station's oldest. -/
theorem completeRecords_eq {n : Nat} (rs : List CommandRecord) (o : CommandOutcome) {s : State} (h : TagsDistinct s)
    (hr : ∀ r ∈ rs, r.station = some n) :
    ∃ f : Station → Station, (∀ e, f e = e ∨ f e = { e with busyStreak := 0 })
      ∧ (rs ≠ [] → s.pool.oldestOf n = rs.head?.map (·.tag) → f = fun e => { e with busyStreak := 0 })
      ∧ (rs = [] → f = fun e => e)
      ∧ completeRecords rs o s = (recordsDone rs o s).onStation n f := by
  induction rs generalizing s with
  | nil =>
    exact ⟨fun e => e, fun e => .inl rfl, fun h => absurd rfl h, fun _ => rfl,
      by rw [recordsDone_nil, State.onStation_id]; rfl⟩
  | cons r rs ih =>
    obtain ⟨g, hg, hg0, h3⟩ := completeRecord_eq_onStation o [] h (hr r (List.mem_cons_self ..))
    have hd : TagsDistinct (completeRecord r o [] s) := by
      rw [h3]
      simpa [TagsDistinct] using recordDone_tagsDistinct r o [] h
    obtain ⟨f, hf, _, _, h4⟩ := ih hd (fun q hq => hr q (List.mem_cons_of_mem _ hq))
    refine ⟨fun e => f (g e), ?_, ?_, ?_, ?_⟩
    · intro e
      rcases hg e with h | h <;> rcases hf (g e) with h' | h' <;> simp_all
    · intro _ ho
      have := hg0 (by simpa using ho)
      subst this
      funext e
      rcases hf { e with busyStreak := 0 } with h' | h' <;> simp [h']
    · intro h
      exact absurd h (by simp)
    · show completeRecords rs o (completeRecord r o [] s) = _
      rw [h4, h3, recordsDone_onStation, State.onStation_onStation, recordsDone_cons]

end Sys2Proof.Machine
end

