-- ==== Sys2Proof/Laws/HostFrames.lean ====
section
/-! SUPPORT. A host frame read back: what the assembler finds in a frame that is built as R163 says, and how its last
byte is classified. -/

namespace Sys2Proof.Machine

/-- R163: a word is made of its two bytes. -/
theorem halfOf_highByte_lowByte (h : Half) : halfOf (highByte h) (lowByte h) = h := by
  simp only [halfOf, highByte, lowByte]
  ext i hi
  simp only [BitVec.getElem_or, BitVec.getElem_shiftLeft, BitVec.getElem_setWidth, BitVec.getLsbD_setWidth,
    BitVec.getLsbD_ushiftRight]
  by_cases h8 : i < 8
  · simp [h8, BitVec.getLsbD_eq_getElem hi]
  · have : 8 + (i - 8) = i := by omega
    simp [h8, this, BitVec.getLsbD_eq_getElem hi]
    omega

/-- R163, R164, R167: the bytes after SYNC of a built frame are complete, their CRC matches, and their kind, number,
body and received CRC are those it was built from. -/
theorem hostFrame_read {bytes : List Byte} {kind number : Byte} {body : List Byte} (hb : body.length ≤ 64)
    (h : 0xA5#8 :: bytes = hostFrame kind number body) :
    hostFrameComplete bytes = true ∧ hostCrcMatches bytes = true ∧ hostBody bytes = body ∧ bytes.getD 1 0 = kind
      ∧ bytes.getD 2 0 = number ∧ hostCrc bytes = crc16 (b8 (body.length + 2) :: kind :: number :: body) := by
  simp only [hostFrame, List.cons_append, List.cons.injEq, true_and] at h
  have length : u8At bytes 0 = body.length + 2 := by
    rw [h]
    simp [u8At, b8]
    omega
  have whole : bytes.length = body.length + 5 := by
    rw [h]
    simp
  have covered : bytes.take (body.length + 3) = b8 (body.length + 2) :: kind :: number :: body := by
    rw [h]
    simp
  have crc : bytes.drop (body.length + 3)
      = [lowByte (crc16 (b8 (body.length + 2) :: kind :: number :: body)),
        highByte (crc16 (b8 (body.length + 2) :: kind :: number :: body))] := by
    rw [h]
    simp
  have low := congrArg (fun l => l.getD 0 0) crc
  have high := congrArg (fun l => l.getD 1 0) crc
  simp only [List.getD_eq_getElem?_getD, List.getElem?_drop, List.getElem?_cons_zero, List.getElem?_cons_succ,
    Option.getD_some, Nat.add_zero] at low high
  have atBody : body.length + 2 + 1 = body.length + 3 := rfl
  have atHigh : body.length + 2 + 2 = body.length + 3 + 1 := rfl
  refine ⟨by simp [hostFrameComplete, length, whole], ?_, ?_, by rw [h]; rfl, by rw [h]; rfl, ?_⟩
  · simp only [hostCrcMatches, length, atBody, covered, crc, BEq.rfl]
  · simp only [hostBody, length, atBody, covered]
    rfl
  · simp only [hostCrc, length, atBody, atHigh, List.getD_eq_getElem?_getD, low, high, halfOf_highByte_lowByte]

/-- A built frame has more bytes after SYNC than its last. -/
theorem hostFrame_front_ne_nil {bytes : List Byte} {last kind number : Byte} {body : List Byte}
    (h : 0xA5#8 :: (bytes ++ [last]) = hostFrame kind number body) : bytes ≠ [] := by
  rintro rfl
  have := congrArg List.length h
  simp [hostFrame] at this

/-- R165: the last byte of a REQUEST frame. -/
theorem Link.classify_request {k : Link} {bytes : List Byte} {timer : Option Nat} {last number : Byte}
    {body : List Byte} (hb : body.length ≤ 64) (ha : k.assembler = some ⟨bytes, timer⟩)
    (h : 0xA5#8 :: (bytes ++ [last]) = hostFrame 0x01#8 number body) : k.classify last false = .request := by
  obtain ⟨complete, crc, -, kind, -, -⟩ := hostFrame_read hb h
  simp only [Link.classify, ha, hostFrame_front_ne_nil h, complete, crc, kind, false_and, if_false, Bool.not_true,
    Bool.false_eq_true, if_true]

/-- R165: the last byte of an ACK frame. -/
theorem Link.classify_ack {k : Link} {bytes : List Byte} {timer : Option Nat} {last number : Byte} {body : List Byte}
    (hb : body.length = 2) (ha : k.assembler = some ⟨bytes, timer⟩)
    (h : 0xA5#8 :: (bytes ++ [last]) = hostFrame 0x02#8 number body) : k.classify last false = .ack := by
  obtain ⟨complete, crc, body', kind, -, -⟩ := hostFrame_read (by omega) h
  simp only [Link.classify, ha, hostFrame_front_ne_nil h, complete, crc, kind, body', hb, false_and, if_false,
    Bool.not_true, Bool.false_eq_true]
  rfl

/-- R157: removal through the first entry of a number leaves what follows it. -/
theorem dropThrough_append {old rest : List Entry} {e : Entry} {n : Half} (he : e.seq = n)
    (h : ∀ x ∈ old, x.seq ≠ n) : dropThrough n (old ++ e :: rest) = rest := by
  induction old with
  | nil => simp [dropThrough, he]
  | cons x old ih =>
    simp only [List.cons_append, dropThrough, h x (by simp), if_false]
    exact ih fun y hy => h y (by simp [hy])

/-! ### The receiver's wait for mark (R162) -/

/-- R40, R162: while the receiver seeks no edge its samples name no row. -/
theorem hostReceipt_of_not_seeking {s : State} (h : s.hostSeeksEdge = false) (samples : List Bool) :
    s.hostReceipt samples = none := by
  simp [State.hostReceipt, h]

/-- R40, R162: while the receiver seeks no edge no byte is of any class. -/
theorem hostByteIs_of_not_seeking {s : State} (h : s.hostSeeksEdge = false) (c : HostByteClass) (byte : Byte)
    (framingError : Bool) : hostByteIs c byte framingError s = false := by
  simp [hostByteIs, h]

/-- R162: a byte without a framing error leaves a receiver that seeks edges as it is. -/
theorem receiveHostByte_good {s : State} (h : s.link.awaitsMark = false) : receiveHostByte false s = s := by
  simp [receiveHostByte, State.onLink, ← h]

end Sys2Proof.Machine
end

