-- ==== Sys2Proof/Laws/Lines.lean ====
section
/-! SUPPORT. What the operations of a line column come to, case by case, in the terms of the statements. -/

namespace Sys2Proof.Machine

/-! ### Counters, notice and assembler -/

theorem countLine_eq (l : LineId) (f : LineCounters → LineCounters) (s : State) :
    countLine l f s = s.onLine l fun ln => { ln with counters := f ln.counters } := rfl

theorem raiseLineNotice_eq (l : LineId) (cause : LineCause) (s : State) :
    raiseLineNotice l cause s = s.onLine l fun ln => lineNoticed ln cause := rfl

/-- R34: a partial frame, if held, is abandoned and counted. -/
theorem endAssembly_eq (l : LineId) (s : State) :
    endAssembly l s =
      s.onLine l fun ln =>
        { ln with assembler := none, counters := abandonedIf ln.assembler.isSome ln.counters } := by
  unfold endAssembly
  congr 1
  funext ln
  cases h : ln.assembler with
  | none =>
    cases ln
    simp_all [abandonedIf]
  | some p => rfl

/-- R34: with no partial frame, abandoning one changes nothing. -/
theorem endAssembly_of_seeking {l : LineId} {s : State} (h : (s.line l).assembler = none) : endAssembly l s = s := by
  unfold endAssembly
  cases l <;> simp only [State.line] at h <;> simp [State.onLine, h]

/-! ### Scans and line tests -/

/-- R136, R137: the end of a scan. -/
theorem endScan_eq (l : LineId) (status : ScanStatus) (s : State) : endScan l status s = scanEnded l status s := by
  unfold endScan scanEnded
  cases (s.line l).scan with
  | none => rfl
  | some sc => cases l <;> rfl

/-- R137: with no scan nothing changes. -/
theorem endScan_of_none {l : LineId} {status : ScanStatus} {s : State} (h : (s.line l).scan = none) :
    endScan l status s = s := by
  unfold endScan
  rw [h]

/-- R141: the end of a line test. -/
theorem endTest_eq {l : LineId} {t : LineTest} (status : TestStatus) {s : State} (h : (s.line l).test = some t) :
    endTest l status s = testEnded l t status s := by
  unfold endTest
  rw [h]
  simp only [endAssembly_eq, raiseLineNotice_eq]
  cases l <;> rfl

/-- R136: a roll call's result while no scan runs is discarded. -/
theorem rollCallResult_of_none {l : LineId} {present : Bool} {s : State} (h : (s.line l).scan = none) :
    rollCallResult l present s = s := by
  unfold rollCallResult
  rw [h]

/-- R136: the result absent, with addresses left. -/
theorem rollCallResult_absent {l : LineId} {sc : Scan} {s : State} (h : (s.line l).scan = some sc)
    (hr : sc.rollCall = true) (hn : sc.next ≤ sc.last) :
    rollCallResult l false s = s.onLine l fun ln => { ln with scan := some { sc with rollCall := false } } := by
  unfold rollCallResult
  rw [h]
  simp [hr, Nat.not_lt.2 hn]

/-- R136: the result absent of the last address: the scan ends COMPLETE. -/
theorem rollCallResult_absent_last {l : LineId} {sc : Scan} {s : State} (h : (s.line l).scan = some sc)
    (hr : sc.rollCall = true) (hn : sc.last < sc.next) :
    rollCallResult l false s =
      converted (.scanDone l .complete sc.responders) (s.onLine l fun ln => { ln with scan := none }) := by
  unfold rollCallResult
  rw [h]
  simp only [hr, Bool.not_true, Bool.false_eq_true, if_false, hn, if_true]
  cases l <;> rfl

/-! ### The exchange record -/

/-- The record an exchange carries, found by its tag (R93). -/
theorem Pool.find_of_mem {p : Pool} {q : CommandRecord} (h : (p.records.map (·.tag)).Nodup) (hq : q ∈ p.records) :
    p.find q.tag = some q := by
  unfold Pool.find
  induction hr : p.records generalizing p with
  | nil => simp [hr] at hq
  | cons a rs ih =>
    rw [hr] at h hq
    simp only [List.map_cons, List.nodup_cons] at h
    rcases List.mem_cons.1 hq with rfl | hm
    · simp
    · have : a.tag ≠ q.tag := fun e => h.1 (e ▸ List.mem_map_of_mem (f := (·.tag)) hm)
      rw [List.find?_cons_of_neg (by simpa using this)]
      exact ih (p := ⟨rs, p.acceptCount⟩) h.2 hm rfl

/-- R99: the record carried completes. -/
theorem completeCarried_eq {x : Exchange} {q : CommandRecord} (o : CommandOutcome) (d : List Byte) {s : State}
    (hx : x.record = some q.tag) (h : TagsDistinct s) (hq : q ∈ s.pool.records) :
    completeCarried x o d s = completeRecord q o d s := by
  unfold completeCarried
  rw [hx]
  simp only [Pool.find_of_mem h hq]

/-- An exchange without a record completes none. -/
theorem completeCarried_of_none {x : Exchange} {o : CommandOutcome} {d : List Byte} {s : State}
    (hx : x.record = none) : completeCarried x o d s = s := by
  unfold completeCarried
  rw [hx]

/-- An exchange without a record changes none. -/
theorem onCarried_of_none {x : Exchange} {f : CommandRecord → CommandRecord} {s : State} (hx : x.record = none) :
    onCarried x f s = s := by
  unfold onCarried
  rw [hx]

/-- The record carried is the one of its tag. -/
theorem onCarried_of_some {x : Exchange} {tag : Half} {f : CommandRecord → CommandRecord} {s : State}
    (hx : x.record = some tag) : onCarried x f s = onRecord tag f s := by
  unfold onCarried
  rw [hx]

/-- An exchange that names no station changes no entry. -/
theorem onNamed_of_none {x : Exchange} {f : Station → Station} {s : State} (hx : x.station = none) :
    onNamed x f s = s := by
  unfold onNamed
  rw [hx]

/-- The entry of the station an exchange names. -/
theorem onNamed_of_station {x : Exchange} {n : Nat} {e : Station} {f : Station → Station} {s : State}
    (hx : x.station = some n) (h : s.station n = some e) : onNamed x f s = s.setStation n (some (f e)) := by
  unfold onNamed
  rw [hx]
  exact State.onStation_of_station h f

/-- R54: the retry limit of the station named. -/
theorem retryLimitOf_eq {x : Exchange} {n : Nat} {e : Station} {s : State} (hx : x.station = some n)
    (h : s.station n = some e) : retryLimitOf x s = e.retryLimit := by
  simp [retryLimitOf, hx, h]

/-- R153: the reservation held is released. -/
theorem releaseHeld_eq {x : Exchange} {s : State} (hx : x.holdsReservation = true) :
    releaseHeld x s = { s with queue := { s.queue with reservations := s.queue.reservations - 1 } } := by
  simp only [releaseHeld, hx, if_true]
  rfl

/-- The exchange in flight, changed. -/
theorem onExchange_eq {l : LineId} {x : Exchange} (f : Exchange → Exchange) {s : State}
    (h : (s.line l).exchange = some x) :
    onExchange l f s = s.onLine l fun ln => { ln with exchange := some (f x) } := by
  unfold onExchange
  cases l <;> simp only [State.line] at h <;> simp [State.onLine, h]

/-- A decided outcome: the exchange carries no record and holds no reservation from then on. -/
theorem decideOutcome_eq {l : LineId} {x : Exchange} (o : ExchangeOutcome) {s : State}
    (h : (s.line l).exchange = some x) :
    decideOutcome l o s =
      s.onLine l fun ln =>
        { ln with exchange := some { x with outcome := some o, record := none, holdsReservation := false } } :=
  onExchange_eq _ h

/-- R48: into GAP from a line whose assembler seeks. -/
theorem enterGap_of_seeking {l : LineId} {x : Exchange} {s : State} (h : (s.line l).exchange = some x)
    (ha : (s.line l).assembler = none) :
    enterGap l s =
      s.onLine l fun ln => { ln with exchange := some { x with phase := .gap, timer := some ln.config.lineGap } } := by
  unfold enterGap
  cases l <;> simp only [State.line] at h ha <;> simp [State.onLine, h, ha]

/-- R47, R48: into GAP from a line on which a new address character has begun a frame, which counts as stray. -/
theorem enterGap_of_begun {l : LineId} {x : Exchange} {s : State} (h : (s.line l).exchange = some x)
    (ha : (s.line l).assembler.isSome) :
    enterGap l s =
      s.onLine l fun ln =>
        { ln with
          exchange := some { x with phase := .gap, timer := some ln.config.lineGap }
          counters := ln.counters.countStray
          assembler := none } := by
  unfold enterGap
  cases l <;> simp only [State.line] at h ha <;> simp [State.onLine, h, ha]

/-- R43, R24: an attempt of an exchange without a record begins. -/
theorem beginAttempt_of_none {l : LineId} {x : Exchange} {s : State} (hx : x.record = none) :
    beginAttempt l x s =
      s.onLine l fun ln =>
        { ln with exchange := some { x with phase := .transmit, charsSent := 0, timer := none }, driver := true } := by
  unfold beginAttempt
  rw [onCarried_of_none hx]

/-- R64: an exchange that names no station ends. -/
theorem endExchange_of_none {l : LineId} {x : Exchange} {s : State} (h : (s.line l).exchange = some x)
    (hx : x.station = none) : endExchange l s = s.onLine l fun ln => { ln with exchange := none } := by
  unfold endExchange
  rw [h]
  simp only [hx]

/-- R64, R108: an exchange with a station ends: its result is applied, then a pending disable. -/
theorem endExchange_of_station {l : LineId} {x : Exchange} {n : Nat} {s : State} (h : (s.line l).exchange = some x)
    (hx : x.station = some n) :
    endExchange l s =
      resolveDisable n (applyResult n x.result (s.onLine l fun ln => { ln with exchange := none })) := by
  unfold endExchange
  rw [h]
  simp only [hx]

/-! ### The driver, the pins and the receiver -/

@[simp] theorem Line.afterRestart_eq_some {ln : Line} {c : LineCharacter} {looped : Bool} :
    ln.afterRestart = some (c, looped) ↔ ln.ending = some (.restart c looped) := by
  unfold Line.afterRestart
  split <;> cases looped <;> simp_all

/-- R24, R25: no character of a RESTART in the shift path: the driver is released. -/
theorem Line.driverOff_of_none {ln : Line} (h : ln.afterRestart = none) : ln.driverOff = false := by
  simp [Line.driverOff, h]

/-- R69: what completes after RESTART keeps the driver. -/
theorem Line.driverOff_of_some {ln : Line} {c : LineCharacter × Bool} (h : ln.afterRestart = some c) :
    ln.driverOff = ln.driver := by
  simp [Line.driverOff, h]

/-- R23: between characters the transmit pin is at mark. -/
theorem Line.txPin_of_none {ln : Line} (h : ln.pinCharacter = none) (bitTime : Nat) : ln.txPin bitTime = true := by
  simp [Line.txPin, h]

/-- R44: in TRANSMIT the pin carries the character of the exchange. -/
theorem Line.pinCharacter_of_transmit {ln : Line} {x : Exchange} (hr : ln.afterRestart = none)
    (h : ln.exchange = some x) (hp : x.phase = .transmit) :
    ln.pinCharacter = some (frameCharacter x.frame x.charsSent) := by
  simp [Line.pinCharacter, Line.exchangeCharacter, hr, h, hp]

/-- R140: in SENDING the internal loop carries the character of the test. -/
theorem Line.loopCharacter_of_sending {ln : Line} {t : LineTest} (hr : ln.afterRestart = none)
    (hx : ln.exchange = none) (h : ln.test = some t) (hp : t.phase = .sending) :
    ln.loopCharacter = some (frameCharacter (testFrame t.index) t.charsSent) := by
  simp [Line.loopCharacter, Line.testCharacter, hr, hx, h, hp]

/-- R23, R69: at RESTART what is at the transmit pin completes there. -/
theorem Line.restartEnding_of_pin {ln : Line} {c : LineCharacter} (h : ln.pinCharacter = some c) :
    ln.restartEnding = some (.restart c false) := by
  simp [Line.restartEnding, h]

/-- R23: at RESTART what is on the internal loop completes there. -/
theorem Line.restartEnding_of_loop {ln : Line} {c : LineCharacter} (hp : ln.pinCharacter = none)
    (h : ln.loopCharacter = some c) : ln.restartEnding = some (.restart c true) := by
  simp [Line.restartEnding, hp, h]

/-- R26, R28: a receiver that seeks no edge takes no character. -/
theorem Line.classify_of_not_seeking {ln : Line} {byte : Byte} {mark : Bool} (h : ln.seeksEdge = false) :
    ln.classify byte mark = none := by
  simp [Line.classify, h]

/-! ### Modes -/

/-- R126, steps 3 to 5: what taking a mode that SET_LINE_MODE names comes to. -/
theorem takeMode_eq (l : LineId) {m : LineMode} (s : State) (h : m ≠ .test) :
    raiseLineNotice l .modeSet (takeMode l m (endAssembly l s)) = modeTaken l m s := by
  rw [endAssembly_eq, raiseLineNotice_eq]
  unfold takeMode modeTaken
  rw [State.onLine_onLine, State.onLine_onLine]
  congr 1
  funext ln
  cases m <;> first | exact absurd rfl h | rfl

/-- R126: the line's own mode, where its work is done: nothing changes. -/
theorem changeMode_same {l : LineId} {m : LineMode} {s : State} (h : ((endLineWork l s).line l).mode = m) :
    changeMode l m s = endLineWork l s := by
  simp [changeMode, h]

/-- R126: another mode is taken once the line's work has ended. -/
theorem changeMode_eq {l : LineId} {m : LineMode} {s : State} (hm : m ≠ .test)
    (h : ((endLineWork l s).line l).mode ≠ m) : changeMode l m s = modeTaken l m (endLineWork l s) := by
  simp only [changeMode, h, if_false]
  exact takeMode_eq l _ hm

/-! ### Capture -/

/-- R132: a capture with space. -/
theorem captureFrame_of_space {l : LineId} {h : HandedUp} {s : State}
    (hs : s.queue.entries.length + s.queue.reservations < 128) :
    captureFrame l h s =
      { s with queue := { s.queue with
        entries := s.queue.entries ++ [⟨s.queue.seqCounter, captureReport l h, false⟩]
        seqCounter := s.queue.seqCounter + 1 } } := by
  have : s.queue.hasSpace = true := decide_eq_true hs
  simp only [captureFrame, this, if_true]
  rfl

/-- R132: a capture without space is counted lost. -/
theorem captureFrame_of_full {l : LineId} {h : HandedUp} {s : State}
    (hs : 128 ≤ s.queue.entries.length + s.queue.reservations) :
    captureFrame l h s = s.onLine l fun ln => { ln with counters := ln.counters.countLost } := by
  have : s.queue.hasSpace = false := decide_eq_false (Nat.not_lt.2 hs)
  simp only [captureFrame, this, Bool.false_eq_true, if_false]
  rfl

end Sys2Proof.Machine
end

