-- ==== Sys2Proof/Laws/Link.lean ====
section
/-! SUPPORT. What the operations of the host link come to, case by case: the response queue, the session and its runs,
acknowledgements, and the host transmitter. -/

namespace Sys2Proof.Machine

/-! ### The response queue -/

/-- R170: with room the response joins the tail. -/
theorem queueIfRoom_of_room {r : Response} {s : State} (h : s.link.responseRoom = true) :
    queueIfRoom r s = { s with link := { s.link with responses := s.link.responses ++ [r] } } := by
  simp only [queueIfRoom, h, if_true]
  rfl

/-- R170: without room it is dropped and counted. -/
theorem queueIfRoom_of_full {r : Response} {s : State} (h : s.link.responseRoom = false) :
    queueIfRoom r s = { s with link := { s.link with counters := s.link.counters.countDropped } } := by
  simp only [queueIfRoom, h, Bool.false_eq_true, if_false]
  rfl

/-! ### The session -/

/-- R171, R172: clearing the sent marks touches the entries alone. -/
theorem clearSentMarks_eq (s : State) :
    clearSentMarks s =
      { s with queue := { s.queue with entries := s.queue.entries.map fun e => { e with sent := false } } } := rfl

/-- R173: a run begins at the head, and retransmission runs rises. -/
theorem beginRun_eq (s : State) :
    beginRun s =
      { s with link := { s.link with
        session := { s.link.session with run := s.queue.entries.head?.map (·.seq) }
        counters := s.link.counters.countRun } } := rfl

/-- R176: outside STALLED a valid frame leaves the session as it is. -/
theorem returnFromStall_of_ne {s : State} (h : s.link.session.state ≠ .stalled) : returnFromStall s = s := by
  simp only [returnFromStall, h, if_false]

/-- R176: in STALLED it reopens the session with a run at the head. -/
theorem returnFromStall_of_stalled {s : State} (h : s.link.session.state = .stalled) :
    returnFromStall s =
      { s with link := { s.link with
        session := { s.link.session with
          state := .opened, retransmissions := 0, run := s.queue.entries.head?.map (·.seq) }
        counters := s.link.counters.countRun } } := by
  simp only [returnFromStall, h, if_true]
  rfl

/-! ### Acknowledgements -/

/-- R174: a number of no sent entry is stray. -/
theorem takeAck_of_stray {n : Half} {s : State} (h : sentNumber s.queue n = false) :
    takeAck n s = { s with link := { s.link with counters := s.link.counters.countStrayAck } } := by
  simp only [takeAck, h, Bool.false_eq_true, if_false]
  rfl

/-- R174, R157: sent entries remain behind the one acknowledged. -/
theorem acknowledge_of_more {n : Half} {s : State} {rest : List Entry} (hd : dropThrough n s.queue.entries = rest)
    (h : ∃ x ∈ rest, x.sent = true) :
    acknowledge n s =
      { s with
        queue := { s.queue with entries := rest }
        link := { s.link with session := { s.link.session with
          retransmissions := 0, run := s.link.session.run.bind (moveRun rest)
          ackTimer := some s.link.session.timeout } } } := by
  have : 0 < (s.onQueue fun q => { q with entries := rest }).queue.sentCount := by
    simp only [ReportQueue.sentCount, State.onQueue_queue, List.length_pos_iff_exists_mem, List.mem_filter]
    exact h
  simp only [acknowledge, hd, this, if_true]
  rfl

/-- R174, R157: no sent entry remains. -/
theorem acknowledge_of_last {n : Half} {s : State} {rest : List Entry} (hd : dropThrough n s.queue.entries = rest)
    (h : ∀ x ∈ rest, x.sent = false) :
    acknowledge n s =
      { s with
        queue := { s.queue with entries := rest }
        link := { s.link with session := { s.link.session with
          retransmissions := 0, run := none, ackTimer := none } } } := by
  have : ¬0 < (s.onQueue fun q => { q with entries := rest }).queue.sentCount := by
    simpa [ReportQueue.sentCount] using h
  simp only [acknowledge, hd, this, if_false]
  rfl

/-! ### The host transmitter -/

/-- R149, R173: a report frame that starts. -/
theorem startReport_eq (e : Entry) (s : State) :
    startReport e s =
      { s with
        queue := { s.queue with
          entries := s.queue.entries.map fun x => if x.seq = e.seq then { x with sent := true } else x }
        link := { s.link with
          session := { s.link.session with
            run := s.link.session.run.bind fun _ => positionAfter e.seq s.queue.entries }
          sending := some ⟨.report, reportFrame e⟩ } } := rfl

/-- R177: with CTS high or a frame in progress nothing starts. -/
theorem startHostFrame_of_not {s : State} (h : s.link.ctsLow = false ∨ s.link.sending.isSome) :
    startHostFrame s = s := by
  unfold startHostFrame
  rw [if_neg]
  rcases h with h | h
  · simp [h]
  · cases hs : s.link.sending <;> simp_all

end Sys2Proof.Machine
end

