-- ==== Sys2Proof/Laws/Loop.lean ====
section
/-! SUPPORT. The internal loop of a line test: what it delivers, what taking a character in TEST can do, and the frame
it delivers whole (R139, R140). -/

namespace Sys2Proof.Machine

/-! ### What the loop delivers -/

/-- R140: in SENDING the character in the shift path is there for the receiver until it has taken it. -/
theorem Line.loopDelivery_of_sending {ln : Line} {t : LineTest} (hm : ln.mode = .test) (ha : ln.afterRestart = none)
    (hx : ln.exchange = none) (ht : ln.test = some t) (hp : t.phase = .sending) (hd : t.delivered = false) :
    ln.loopDelivery = some (frameCharacter (testFrame t.index) t.charsSent) := by
  simp [Line.loopDelivery, Line.testCharacter, hm, ha, hx, ht, hp, hd]

/-- R140: a character is delivered once. -/
theorem Line.loopDelivery_of_delivered {ln : Line} {t : LineTest} (ht : ln.test = some t) (hd : t.delivered = true) :
    ln.loopDelivery = none := by
  simp [Line.loopDelivery, ht, hd]

/-- R140: between the frames of a test the loop delivers nothing. -/
theorem Line.loopDelivery_of_phase {ln : Line} {t : LineTest} (ht : ln.test = some t) (hp : t.phase ≠ .sending) :
    ln.loopDelivery = none := by
  simp [Line.loopDelivery, Line.testCharacter, ht, hp]

/-- R26: only a line in TEST listens to its loop. -/
theorem Line.loopDelivery_of_mode {ln : Line} (hm : ln.mode ≠ .test) : ln.loopDelivery = none := by
  simp [Line.loopDelivery, hm]

/-- R26: a line that is not in TEST takes every character that its receiver classifies. -/
theorem Line.takes_of_mode {ln : Line} (hm : ln.mode ≠ .test) (k : CharacterClass) (byte : Byte) (mark fe : Bool) :
    ln.takes k byte mark fe = (ln.classify byte mark == some k) := by
  simp [Line.takes, Line.hears, hm]

/-- R140: a line in TEST takes the character on its loop, without a framing error, and no other. -/
theorem Line.takes_of_test {ln : Line} (hm : ln.mode = .test) (k : CharacterClass) (byte : Byte) (mark fe : Bool) :
    ln.takes k byte mark fe = true ↔
      ln.loopDelivery = some ⟨byte, mark⟩ ∧ fe = false ∧ ln.classify byte mark = some k := by
  simp [Line.takes, Line.hears, hm, and_assoc]

/-- R37: in ACTIVE, MONITOR and OFF no line test is marked. -/
theorem Line.testHeard_of_mode {ln : Line} (hm : ln.mode ≠ .test) : ln.testHeard = ln.test := by
  simp [Line.testHeard, hm]

/-- R140: with nothing for the receiver on the loop, nothing is delivered. -/
theorem deliverLoop_of_none {l : LineId} {s : State} (h : (s.line l).loopDelivery = none) : deliverLoop l s = s := by
  simp [deliverLoop, h]

/-- R140: the loop's delivery is the event of the character on it. -/
theorem deliverLoop_eq {l : LineId} {s : State} {c : LineCharacter} {k : CharacterClass}
    (h : (s.line l).loopDelivery = some c) (hk : (s.line l).classify c.byte c.addressMark = some k) :
    deliverLoop l s = takeCharacter l k c.byte false s
      ∧ characterEvent l k c.byte c.addressMark false s = takeCharacter l k c.byte false s := by
  simp [deliverLoop, characterEvent, Line.takes, Line.hears, h, hk]

/-- R26: in TEST the receiver has a class for every character. -/
theorem Line.classify_of_test {ln : Line} (hm : ln.mode = .test) (byte : Byte) (mark : Bool) :
    ∃ k, ln.classify byte mark = some k := by
  unfold Line.classify
  simp only [Line.seeksEdge, Line.receiverEnabled, hm]
  cases mark <;> cases ln.assembler <;> simp
  split
  · simp
  · split <;> simp

/-! ### What taking a character can do while a test frame is sent -/

/-- R140: while a test frame is being sent, what the assembler hands up is held, the first of it. -/
theorem handUp_of_sending {l : LineId} {s : State} {t : LineTest} (hm : (s.line l).mode = .test)
    (ht : (s.line l).test = some t) (hp : t.phase = .sending) (h : HandedUp) :
    handUp l h s =
      s.onLine l fun ln =>
        { ln with test := some { t with handed := t.handed.or (some (matchesTestFrame t.index h)) } } := by
  simp [handUp, testHandedUp, hm, ht, hp]

/-- Two changes of a line that agree on the line as it stands are one change. -/
theorem State.onLine_congr {s : State} {l : LineId} {f g : Line → Line} (h : f (s.line l) = g (s.line l)) :
    s.onLine l f = s.onLine l g := by
  cases l <;> simp only [State.line] at h <;> simp [State.onLine, h]

/-- R34 to R37, R140: taking a character while a test frame is being sent touches nothing but the line's wait for mark,
its counters, its assembler and the test, which holds what was handed up. -/
theorem takeCharacter_of_sending {l : LineId} {s : State} {t : LineTest} (hm : (s.line l).mode = .test)
    (hx : (s.line l).exchange = none) (ht : (s.line l).test = some t) (hp : t.phase = .sending) (k : CharacterClass)
    (byte : Byte) (fe : Bool) :
    ∃ counters assembler handed,
      takeCharacter l k byte fe s =
        s.onLine l fun ln =>
          { ln with awaitsMark := fe, counters, assembler, test := some { t with delivered := true, handed } } := by
  have ht' : (s.line l).testHeard = some { t with delivered := true } := by simp [Line.testHeard, hm, ht]
  let counted := if fe then (s.line l).counters.countFraming else (s.line l).counters
  have up : ∀ (u : State) (h : HandedUp) (counters : LineCounters) (assembler : Option PartialFrame),
      u = s.onLine l (fun ln =>
        { ln with awaitsMark := fe, counters, assembler, test := some { t with delivered := true } }) →
      handUp l h u = s.onLine l (fun ln =>
        { ln with
          awaitsMark := fe, counters, assembler
          test := some { t with delivered := true, handed := t.handed.or (some (matchesTestFrame t.index h)) } }) := by
    rintro u h counters assembler rfl
    rw [handUp_of_sending (t := { t with delivered := true }) (by simpa using hm) (by simp) hp]
    simp
  cases k with
  | stray =>
    refine ⟨(s.line l).counters.countStray, (s.line l).assembler, t.handed, ?_⟩
    simp only [takeCharacter, receiveStray]
    exact State.onLine_congr (by simp [ht'])
  | added =>
    let f := extendedFrame l byte fe s
    refine ⟨counted, some ⟨f.1, f.2, some (s.line l).config.intercharacter⟩, t.handed, ?_⟩
    simp only [takeCharacter, holdPartial, receiveCharacter, State.onLine_onLine]
    exact State.onLine_congr (by simp [ht', counted, f])
  | begins =>
    simp only [takeCharacter, beginFrame, receiveCharacter, State.line_onLine_same]
    cases ha : (s.line l).assembler with
    | none =>
      refine ⟨counted, some ⟨[byte], fe, some (s.line l).config.intercharacter⟩, t.handed, ?_⟩
      simp only [beginReply, onExchange, holdPartial, State.onLine_onLine]
      exact State.onLine_congr (by simp [ht', hx, counted])
    | some p =>
      refine ⟨counted.countAbandoned, some ⟨[byte], fe, some (s.line l).config.intercharacter⟩, _, up _ _ _ _ ?_⟩
      simp only [countLine, holdPartial, State.onLine_onLine]
      exact State.onLine_congr (by simp [ht', counted])
  | tooLong =>
    refine ⟨counted.countAbandoned, none, _, up _ _ _ _ ?_⟩
    simp only [receiveCharacter, State.onLine_onLine]
    exact State.onLine_congr (by simp [ht', counted])
  | completes =>
    let f := extendedFrame l byte fe s
    refine ⟨counted.countFrame f.2 (⟨f.1, f.2, none⟩ : HandedUp).crcMatches, none, _, up _ _ _ _ ?_⟩
    simp only [receiveCharacter, State.onLine_onLine]
    exact State.onLine_congr (by simp [ht', counted, f])

/-- R140: while a test frame is being sent, the loop delivers its character, as one of the class it has. -/
theorem deliverLoop_of_sending {l : LineId} {s : State} {t : LineTest} (hm : (s.line l).mode = .test)
    (ha : (s.line l).afterRestart = none) (hx : (s.line l).exchange = none) (ht : (s.line l).test = some t)
    (hp : t.phase = .sending) (hd : t.delivered = false) :
    ∃ k, (s.line l).classify ((testFrame t.index).getD t.charsSent 0) (t.charsSent == 0) = some k
      ∧ deliverLoop l s = takeCharacter l k ((testFrame t.index).getD t.charsSent 0) false s := by
  obtain ⟨k, hk⟩ := Line.classify_of_test hm ((testFrame t.index).getD t.charsSent 0) (t.charsSent == 0)
  exact ⟨k, hk, (deliverLoop_eq (Line.loopDelivery_of_sending hm ha hx ht hp hd) hk).1⟩

/-! ### The frame that goes round the loop whole -/

@[simp] theorem testFrame_length (n : Nat) : (testFrame n).length = 37 := by
  simp [testFrame, lineFrame, testPayload]

/-- R31, R139: the first and the third character of a test frame. -/
theorem testFrame_cons (n : Nat) : ∃ control rest, testFrame n = 0#8 :: control :: 32#8 :: rest := by
  simp [testFrame, lineFrame, testPayload, b8]

/-- R32, R36, R139: the CRC of a test frame is the one computed. -/
theorem testFrame_crcMatches (n : Nat) : (⟨testFrame n, false, none⟩ : HandedUp).crcMatches = true := by
  simp [HandedUp.crcMatches, HandedUp.length, u8At, testFrame, lineFrame, testPayload, b8]

/-- R139, R140: frame n of a test, received without a framing error, matches. -/
theorem matchesTestFrame_testFrame (n : Nat) : matchesTestFrame n ⟨testFrame n, false, none⟩ = true := by
  unfold matchesTestFrame
  rw [testFrame_crcMatches]
  have h : n % 2 = 0 ∨ n % 2 = 1 := by omega
  rcases h with h | h <;>
    simp [HandedUp.address, HandedUp.kindCode, HandedUp.toggle, HandedUp.resync, HandedUp.length, HandedUp.payload,
      u8At, testFrame, lineFrame, testPayload, controlByte, flagBit, b8, h, Config.maxPayload]

/-- R34 to R36: the class of character k of a test frame, to an assembler that holds those before it. -/
theorem classify_testFrame {ln : Line} {n k : Nat} (hm : ln.mode = .test) (hk : k < 37)
    (ha : ln.assembler.map (fun p => (p.chars, p.framing))
      = if k = 0 then none else some ((testFrame n).take k, false)) :
    ln.classify ((testFrame n).getD k 0) (k == 0) =
      some (if k = 0 then .begins else if k = 36 then .completes else .added) := by
  unfold Line.classify
  simp only [Line.seeksEdge, Line.receiverEnabled, hm]
  by_cases h0 : k = 0
  · simp [h0]
  · simp only [h0, if_false] at ha
    obtain ⟨p, hp, hc⟩ := Option.map_eq_some_iff.1 ha
    have hc : p.chars = (testFrame n).take k := congrArg Prod.fst hc
    obtain ⟨c, rest, hf⟩ := testFrame_cons n
    have hl : ((testFrame n).take k).length = k := by simp; omega
    rw [hp]
    simp only [hc, hl]
    by_cases h2 : k = 2
    · simp [h2, hf, Config.maxPayload, u8At]
    · by_cases h1 : k = 1
      · simp [h1, hf, u8At]
      · obtain ⟨j, rfl⟩ : ∃ j, k = j + 3 := ⟨k - 3, by omega⟩
        have hu : u8At ((testFrame n).take (j + 3)) 2 = 32 := by simp [hf, u8At]
        simp only [hu]
        by_cases h36 : j = 33
        · simp [h36]
        · have : ¬(j + 3 + 1 = 5 + 32) := by omega
          simp [this, h36]

/-- R35: character k added to those before it. -/
theorem testFrame_take_succ {n k : Nat} (hk : k < 37) :
    (testFrame n).take k ++ [(testFrame n).getD k 0] = (testFrame n).take (k + 1) := by
  have h : k < (testFrame n).length := by simpa using hk
  rw [List.take_succ_eq_append_getElem h]
  simp [List.getD, List.getElem?_eq_getElem h]

/-- R35, R140: a character of a test frame but its last, delivered to an assembler that holds those before it. -/
theorem testCharacterLeft_of_assembling {l : LineId} {s : State} {t : LineTest} (hm : (s.line l).mode = .test)
    (ha : (s.line l).afterRestart = none) (hx : (s.line l).exchange = none) (ht : (s.line l).test = some t)
    (hp : t.phase = .sending) (hd : t.delivered = false) (hk : t.charsSent < 36)
    (hc : (s.line l).assembler.map (fun p => (p.chars, p.framing))
      = if t.charsSent = 0 then none else some ((testFrame t.index).take t.charsSent, false)) :
    testCharacterLeft l s =
      s.onLine l fun ln =>
        { ln with
          awaitsMark := false
          assembler := some ⟨(testFrame t.index).take (t.charsSent + 1), false, some ln.config.intercharacter⟩
          test := some { t with charsSent := t.charsSent + 1, delivered := false } } := by
  obtain ⟨k, hk', hd'⟩ := deliverLoop_of_sending hm ha hx ht hp hd
  rw [classify_testFrame hm (by omega) hc] at hk'
  have hh : (s.line l).testHeard = some { t with delivered := true } := by simp [Line.testHeard, hm, ht]
  rw [testCharacterLeft, hd']
  have hne : t.charsSent ≠ 36 := by omega
  rw [← testFrame_take_succ (n := t.index) (k := t.charsSent) (by omega)]
  by_cases h0 : t.charsSent = 0
  · simp only [h0, if_true, Option.map_eq_none_iff] at hk' hc
    obtain rfl := Option.some.inj hk'
    simp only [takeCharacter, beginFrame, receiveCharacter, State.line_onLine_same, hc, beginReply, onExchange,
      holdPartial, State.onLine_onLine]
    exact State.onLine_congr (by simp [h0, hh, hx])
  · simp only [h0, hne, if_false] at hk' hc
    obtain rfl := Option.some.inj hk'
    obtain ⟨p, hp', hc⟩ := Option.map_eq_some_iff.1 hc
    simp only [Prod.mk.injEq] at hc
    simp only [takeCharacter, extendedFrame, hp', holdPartial, receiveCharacter, State.onLine_onLine]
    exact State.onLine_congr (by simp [hh, hc.1, hc.2])

/-- R36, R140: the last character of a test frame, delivered to an assembler that holds the others: the frame is
complete, a good frame and a match. -/
theorem testFrameLeft_of_assembling {l : LineId} {s : State} {t : LineTest} {timer : Option Nat}
    (hm : (s.line l).mode = .test) (ha : (s.line l).afterRestart = none) (hx : (s.line l).exchange = none)
    (ht : (s.line l).test = some t) (hp : t.phase = .sending) (hd : t.delivered = false) (hk : t.charsSent = 36)
    (hc : (s.line l).assembler = some ⟨(testFrame t.index).take 36, false, timer⟩) :
    testFrameLeft l s =
      s.onLine l fun ln =>
        { ln with
          awaitsMark := false, assembler := none
          counters := { ln.counters with
            framesSent := bump ln.counters.framesSent, goodFrames := bump ln.counters.goodFrames }
          test := some
            { t with
              framesSent := t.framesSent + 1, charsSent := 37, delivered := true
              handed := t.handed.or (some true) } } := by
  obtain ⟨k, hk', hd'⟩ := deliverLoop_of_sending hm ha hx ht hp hd
  rw [classify_testFrame hm (by omega) (by simp [hc, hk])] at hk'
  simp only [hk] at hk' hd'
  obtain rfl : CharacterClass.completes = k := by simpa using hk'
  have hh : (s.line l).testHeard = some { t with delivered := true } := by simp [Line.testHeard, hm, ht]
  have hf : (testFrame t.index).take 36 ++ [(testFrame t.index).getD 36 0] = testFrame t.index := by
    rw [testFrame_take_succ (by omega)]
    exact List.take_of_length_le (by simp)
  have hg : (s.line l).counters.countFrame false true
      = { (s.line l).counters with goodFrames := bump (s.line l).counters.goodFrames } := rfl
  rw [testFrameLeft, hd']
  simp only [takeCharacter, extendedFrame, hc, hf, Bool.or_false, completeFrame, testFrame_crcMatches,
    receiveCharacter, State.onLine_onLine]
  rw [handUp_of_sending (t := { t with delivered := true }) (by simpa using hm) (by simp [hh]) hp]
  simp only [matchesTestFrame_testFrame, countLine, State.onLine_onLine]
  exact State.onLine_congr (by simp [hg, hk, LineCounters.countSent])

end Sys2Proof.Machine
end

