-- ==== Sys2Proof/Laws/Requests.lean ====
section
/-! SUPPORT. What the host link does with the head of its intake, case by case (R168). -/

namespace Sys2Proof.Machine

/-- R168, R169: what `respond` leaves. -/
theorem respond_eq_answered (r : Request) (st : Status) (d : List Byte) (s : State) :
    respond r ⟨st, d⟩ false s = answered r st d s := by
  unfold respond answered cacheAdd State.onLink Reply.body
  have : Config.cacheSize = 4 := rfl
  rw [this]
  split <;> simp <;> omega

/-- R168: a head that may be taken may be taken. -/
theorem canTake_of_atHead {s : State} {r : Request} {rest : List Request} (h : AtHead s r rest) :
    s.link.canTake = true := by
  obtain ⟨_, h2, h3, h4⟩ := h
  have : Config.responseQueueSize = 8 := rfl
  simp [Link.canTake, Link.responseRoom, h2, h3, h4, this]

/-- R168: what becomes of a request that fits and is handed to its owner: the owner's answer, or the request is held
where its steps wait for a driver release. -/
theorem takeRequest_eq {s : State} {r : Request} {rest : List Request} {code : Nat} {inClosed : Bool}
    {apply : List Byte → State → Applied} (h : AtHead s r rest) (hc : requestCode r.body = some code)
    (hl : lengthFits r.body = true) (ho : s.link.session.state ≠ .closed ∨ inClosed = true) (h4 : code ≠ 4) :
    takeRequest code inClosed apply s
      = match apply r.body (headTaken rest s) with
        | ⟨t, some rep⟩ => answered r rep.status rep.data t
        | ⟨t, none⟩ => holdRequest r t := by
  have hh : s.onLink (fun k => { k with intake := rest }) = headTaken rest s := rfl
  unfold takeRequest
  rw [h.1]
  simp only [canTake_of_atHead h, hc, and_self, if_true, hh, hl, Bool.not_true, Bool.false_eq_true, if_false]
  rw [if_neg]
  · cases apply r.body (headTaken rest s) with
    | mk t rep =>
      cases rep with
      | none => rfl
      | some rep =>
        simp only
        rw [decide_eq_false h4]
        exact respond_eq_answered r rep.status rep.data _
  · intro hx
    rcases ho with ho | ho
    · exact ho hx.1
    · simp [ho] at hx

/-- R168: a request that fits and is handed to its owner is answered with what the owner gives back. -/
theorem takeRequest_handed {s : State} {r : Request} {rest : List Request} {code : Nat} {inClosed : Bool}
    {apply : List Byte → State → Applied} (h : AtHead s r rest) (hc : requestCode r.body = some code)
    (hl : lengthFits r.body = true) (ho : s.link.session.state ≠ .closed ∨ inClosed = true)
    {st : Status} {d : List Byte} (ha : (apply r.body (headTaken rest s)).reply = some ⟨st, d⟩) (h4 : code ≠ 4) :
    takeRequest code inClosed apply s = answered r st d (apply r.body (headTaken rest s)).state := by
  rw [takeRequest_eq h hc hl ho h4]
  revert ha
  cases apply r.body (headTaken rest s) with
  | mk t rep => rintro rfl; rfl

/-- R168, R184: a request whose body does not fit its code is answered BAD_REQUEST. -/
theorem takeRequest_unfit {s : State} {r : Request} {rest : List Request} {code : Nat} {inClosed : Bool}
    {apply : List Byte → State → Applied} (h : AtHead s r rest) (hc : requestCode r.body = some code)
    (hl : lengthFits r.body = false) :
    takeRequest code inClosed apply s = refusedWith r rest .badRequest s := by
  have hh : s.onLink (fun k => { k with intake := rest }) = headTaken rest s := rfl
  unfold takeRequest
  rw [h.1]
  simp only [canTake_of_atHead h, hc, and_self, if_true, hh, hl, Bool.not_false]
  exact respond_eq_answered r .badRequest [] _

/-- R168: in CLOSED every request that fits, but IDENTIFY and OPEN_SESSION, is answered NO_SESSION. -/
theorem takeRequest_noSession {s : State} {r : Request} {rest : List Request} {code : Nat}
    {apply : List Byte → State → Applied} (h : AtHead s r rest) (hc : requestCode r.body = some code)
    (hl : lengthFits r.body = true) (ho : s.link.session.state = .closed) :
    takeRequest code false apply s = refusedWith r rest .noSession s := by
  have hh : s.onLink (fun k => { k with intake := rest }) = headTaken rest s := rfl
  unfold takeRequest
  rw [h.1]
  simp only [canTake_of_atHead h, hc, and_self, if_true, hh, hl, Bool.not_true, Bool.false_eq_true, if_false]
  rw [if_pos ⟨ho, rfl⟩]
  exact respond_eq_answered r .noSession [] _

/-- R168: a head that may not be taken stays. -/
theorem takeRequest_waits {s : State} {code : Nat} {inClosed : Bool} {apply : List Byte → State → Applied}
    (h : s.link.canTake = false) : takeRequest code inClosed apply s = s := by
  unfold takeRequest
  split
  · rfl
  · simp [h]

/-! ### What the taking of the head leaves alone -/

@[simp] theorem headTaken_station (s : State) (rest : List Request) (n : Nat) :
    (headTaken rest s).station n = s.station n := rfl
@[simp] theorem headTaken_line (s : State) (rest : List Request) (l : LineId) :
    (headTaken rest s).line l = s.line l := by cases l <;> rfl
@[simp] theorem headTaken_pool (s : State) (rest : List Request) : (headTaken rest s).pool = s.pool := rfl
@[simp] theorem headTaken_queue (s : State) (rest : List Request) : (headTaken rest s).queue = s.queue := rfl
@[simp] theorem headTaken_inFlightKind (s : State) (rest : List Request) (n : Nat) :
    (headTaken rest s).inFlightKind n = s.inFlightKind n := rfl

end Sys2Proof.Machine
end

