-- ==== Sys2Proof/Laws/Stations.lean ====
section
/-! SUPPORT. What the operations on a station as a whole come to: its claims, its disabling, its records released or
completed together, its being reached. -/

namespace Sys2Proof.Machine

/-- R4: a line carries an address exactly when a defined entry claims it there. -/
theorem addressClaimed_iff (s : State) (l : LineId) (address : Nat) :
    s.addressClaimed l address = true
      ↔ ∃ n e, s.station n = some e ∧ e.address = address ∧ (e.home = l ∨ e.alternate = some l) := by
  simp only [State.addressClaimed, List.any_eq_true, List.mem_range]
  constructor
  · rintro ⟨n, -, h⟩
    cases he : s.station n with
    | none => simp [he] at h
    | some e =>
      simp [he, Station.claims] at h
      exact ⟨n, e, he, h.1, h.2⟩
  · rintro ⟨n, e, he, ha, hl⟩
    exact ⟨n, State.station_lt he, by simp [he, Station.claims, ha, hl]⟩

/-- R10: a notice raised. -/
theorem raiseNotice_eq (e : Station) (cause : StationCause) : e.raiseNotice cause = noticed e cause := rfl

/-! ### Records that complete together -/

/-- R90: every record of a station is the station's. -/
theorem station_of_recordsOf {s : State} {n : Nat} : ∀ r ∈ s.pool.recordsOf n, r.station = some n := by
  intro r h
  simpa using (List.mem_filter.1 h).2

theorem recordsDone_probeListed (rs : List CommandRecord) (o : CommandOutcome) (l : Option LineId) (n : Nat)
    (s : State) : recordsDone rs o (probeListed l n s) = probeListed l n (recordsDone rs o s) := rfl

theorem recordsDone_setStation (rs : List CommandRecord) (o : CommandOutcome) (n : Nat) (e : Option Station)
    (s : State) : recordsDone rs o (s.setStation n e) = (recordsDone rs o s).setStation n e := by
  unfold State.setStation
  split <;> rfl

/-- R102: every record of a station has completed; at most the station's busy streak has changed with it, to 0. -/
theorem completeAllOf_eq (n : Nat) (o : CommandOutcome) {s : State} (h : TagsDistinct s) :
    ∃ f : Station → Station, (∀ e, f e = e ∨ f e = { e with busyStreak := 0 })
      ∧ (s.pool.recordsOf n ≠ [] → f = fun e => { e with busyStreak := 0 })
      ∧ (s.pool.recordsOf n = [] → f = fun e => e)
      ∧ completeAllOf n o s = (recordsDone (s.pool.recordsOf n) o s).onStation n f := by
  obtain ⟨f, hf, h1, h2, h3⟩ := completeRecords_eq (s.pool.recordsOf n) o h station_of_recordsOf
  exact ⟨f, hf, fun hne => h1 hne rfl, h2, h3⟩

/-- R115: the transmitted records of a station have completed RESYNC; at most its busy streak has changed, to 0. -/
theorem resyncRelease_eq (n : Nat) {s : State} (h : TagsDistinct s) :
    ∃ f : Station → Station, (∀ e, f e = e ∨ f e = { e with busyStreak := 0 })
      ∧ resyncRelease n s
        = (recordsDone ((s.pool.recordsOf n).filter (·.transmitted)) .resync s).onStation n f := by
  obtain ⟨f, hf, -, -, h3⟩ := completeRecords_eq ((s.pool.recordsOf n).filter (·.transmitted)) .resync h
    fun r hr => station_of_recordsOf r (List.mem_of_mem_filter hr)
  exact ⟨f, hf, h3⟩

/-! ### Disabling -/

/-- R16, R7, R102: a disable takes effect on a defined station. -/
theorem disableTakesEffect_eq {n : Nat} {e : Station} {s : State} (h : TagsDistinct s) (he : s.station n = some e) :
    disableTakesEffect n s =
      probeListed none n
        ((recordsDone (s.pool.recordsOf n) .disabled s).setStation n (some (noticed e.toDisabled .disable))) := by
  have hn := State.station_lt he
  unfold disableTakesEffect
  rw [enterDisabled_eq he]
  have distinct : TagsDistinct (probeListed none n (s.setStation n (some e.toDisabled))) := by
    simpa [TagsDistinct, probeListed] using h
  obtain ⟨f, hf, -, -, h4⟩ := completeAllOf_eq n .disabled distinct
  have records : (probeListed none n (s.setStation n (some e.toDisabled))).pool.recordsOf n = s.pool.recordsOf n := by
    simp [probeListed, Pool.recordsOf]
  rw [h4, records, recordsDone_probeListed, probeListed_onStation, probeListed_onStation, recordsDone_setStation,
    State.onStation_onStation, State.onStation_of_station (State.station_setStation_same _ _ _ hn),
    State.setStation_setStation]
  have kept : f e.toDisabled = e.toDisabled := by
    rcases hf e.toDisabled with h | h <;> rw [h]
    rfl
  rw [kept]
  rfl

/-- R17: with no disable pending nothing happens. -/
theorem resolveDisable_of_clear {n : Nat} {e : Station} {s : State} (he : s.station n = some e)
    (h : e.pendingDisable = false) : resolveDisable n s = s := by
  unfold resolveDisable
  rw [he]
  simp [h]

/-- R17: a pending disable takes effect. -/
theorem resolveDisable_of_pending {n : Nat} {e : Station} {s : State} (he : s.station n = some e)
    (h : e.pendingDisable = true) : resolveDisable n s = disableTakesEffect n s := by
  unfold resolveDisable
  rw [he]
  simp [h]

/-! ### Recovery -/

/-- R119: a station in PROBING or OFFLINE is reached. -/
theorem stationReached_eq {n : Nat} {e : Station} {s : State} (he : s.station n = some e) :
    stationReached n s =
      probeListed none n
        (s.setStation n
          (some (noticed ({ e with state := .online, failures := 0, probeTimer := none } : Station).startPollTimer
            .reached))) := by
  unfold stationReached
  rw [leaveProbeLists_eq, probeListed_onStation, State.onStation_of_station he]
  rfl

/-- R78: the poll timer is started with the poll period, and stopped where that is 0. -/
theorem startPollTimer_eq (e : Station) :
    e.startPollTimer = { e with pollTimer := if e.pollPeriod = 0 then none else some e.pollPeriod } := rfl

end Sys2Proof.Machine
end

