-- ==== Sys2Proof/WellFormed.lean ====
section
/-! DEFINITION. Which commands the part can be given: the one range an operand has that its type does not hold is the
station number of a station timer (R1). -/

namespace Sys2Proof

/-- A station timer belongs to one of the 48 entries (R1, R3). -/
def Instr.wellFormed : Instr → Bool
  | .pollTimerExpiry n => n < Config.stations
  | .holdoffTimerExpiry n => n < Config.stations
  | .probeTimerExpiry n => n < Config.stations
  | _ => true

end Sys2Proof
end

