-- ==== Sys2Proof/Tests/Slice0.lean ====
section
/-! SUPPORT. Tests: one step each, expected results from the manual; and for every statement with hypotheses a concrete
state and operands that meet them, clause by clause, at the boundary values of their ranges. -/

namespace Sys2Proof.Tests

open Sys2Proof.Machine

-- One theorem at a time: many kernel evaluations at once would need more threads than memory holds.
set_option Elab.async false

/-! ### Small states -/

/-- A request with number 7. -/
def rq (body : List Byte) : Request := ⟨7, 0x1234#16, body⟩

/-- The session is OPEN and one request waits. -/
def asked (body : List Byte) (s : State := State.reset) : State :=
  { s with link := { s.link with intake := [rq body], session := { s.link.session with state := .opened } } }

/-- A station at address 3, ONLINE on its home line A. -/
def unit : Station :=
  { address := 3, home := .a, alternate := some .b, current := .a, pollPeriod := 500, retryLimit := 2
    offlineThreshold := 3, state := .online, toggle := true, failures := 0, busyStreak := 0, pollDue := false
    pollTimer := some 9, holdoffTimer := none, probeTimer := none, pendingDisable := false, sticky := 0
    lastFailure := none, counters := .zero, notice := false, changeCount := 0, lastCause := none }

/-- That station, or another entry, as station 47. -/
def withUnit (e : Station := unit) (s : State := State.reset) : State := s.setStation 47 (some e)

/-- Line A in a mode, changed. -/
def lineIn (mode : LineMode) (f : Line → Line := id) (s : State := State.reset) : State :=
  s.onLine .a fun ln => f { ln with mode }

/-- An exchange with station 47. -/
def exchange (kind : ExchangeKind) (phase : Phase) : Exchange :=
  { kind, station := if kind = .broadcast ∨ kind = .rollCall then none else some 47, target := 3
    record := if kind = .command ∨ kind = .broadcast then some 0x200#16 else none
    holdsReservation := kind = .poll ∨ kind = .probe, attempt := 2, toggleSent := true, phase, charsSent := 4
    lastFailure := none, outcome := none, frame := exchangeFrame kind 3 true [], timer := none }

/-- Line A carries an exchange. -/
def busy (x : Exchange) (s : State := withUnit) : State :=
  lineIn .active (fun ln => { ln with exchange := some x, driver := x.phase.drives }) s

/-- A record of tag 0x0200, transmitted. -/
def record (station : Option Nat) (state : RecordState) : CommandRecord :=
  ⟨0x200#16, station, .a, 0, [0x10], state, 1, none, true, false⟩

/-- The pool holds one record, and the reservation it holds is counted. -/
def pooled (q : CommandRecord) (s : State := withUnit) : State :=
  { s with pool := ⟨[q], 1⟩, queue := { s.queue with reservations := 1 } }

/-- A report that waits, with its number and sent mark. -/
def entry (seq : Half) (sent : Bool) : Entry := ⟨seq, .lineState .a .off false none, sent⟩

/-- Entries wait, and the session is OPEN. -/
def waiting (entries : List Entry) (s : State := State.reset) : State :=
  { s with
    queue := { s.queue with entries, seqCounter := BitVec.ofNat 16 entries.length }
    link := { s.link with helloWaiting := false, session := { s.link.session with state := .opened } } }

/-- The host frame assembler holds what came of a host frame before its last byte. -/
def collecting (frame : List Byte) (s : State := State.reset) : State :=
  { s with link := { s.link with assembler := some ⟨(frame.drop 1).dropLast, none⟩ } }

/-- The report queue grants no reservation. -/
def full (s : State) : State := { s with queue := { s.queue with reservations := 128 } }

/-- The state a command leaves. -/
def after (i : Instr) (s : State) : State :=
  match exec i s with
  | .next t => t
  | _ => s

/-- The state a command leaves, if it leaves one. -/
def ran (i : Instr) (s : State) : Option State :=
  match exec i s with
  | .next t => some t
  | _ => none

theorem exec_of_ran {i : Instr} {s t : State} (h : ran i s = some t) : exec i s = .next t := by
  unfold ran at h
  split at h <;> simp_all

/-! ### Well-formedness: one ill-formed command for each check -/

theorem test_wellFormed_pollTimer :
    (Instr.pollTimerExpiry 48).wellFormed = false ∧ (Instr.pollTimerExpiry 47).wellFormed = true := by decide

theorem test_wellFormed_holdoffTimer :
    (Instr.holdoffTimerExpiry 48).wellFormed = false ∧ (Instr.holdoffTimerExpiry 47).wellFormed = true := by decide

theorem test_wellFormed_probeTimer :
    (Instr.probeTimerExpiry 48).wellFormed = false ∧ (Instr.probeTimerExpiry 47).wellFormed = true := by decide

/-! ### Frames and layouts, from the manual's own values -/

/-- R32: the CRC of the nine bytes 0x31 to 0x39 is 0x29B1. -/
theorem test_crc_check_value : crc16 ((List.range 9).map fun i => b8 (0x31 + i)) = 0x29B1#16 := by decide +kernel

/-- R188: kind PROBE with resync mark 1 is 0x23, kind POLL with toggle 1 is 0x11. -/
theorem test_control_bytes : controlByte 0x3 false true = 0x23#8 ∧ controlByte 0x1 true false = 0x11#8 := by decide

/-- R33: a PROBE to address 30, its five characters. -/
theorem test_probe_frame : exchangeFrame .probe 30 false [] = [0x1E, 0x23, 0x00, 0xC7, 0x4B] := by decide +kernel

/-- Section 10.2, worked example: the frame of SUBMIT_COMMAND has LENGTH 10 and 14 bytes, and its answer LENGTH 3. -/
theorem test_worked_example :
    (hostFrame 0x01 7 [0x30, 0x00, 0x02, 0x0C, 0x03, 0x10, 0x20, 0x30]).take 6 = [0xA5, 0x0A, 0x01, 0x07, 0x30, 0x00]
      ∧ (hostFrame 0x01 7 [0x30, 0x00, 0x02, 0x0C, 0x03, 0x10, 0x20, 0x30]).length = 14
      ∧ (hostFrame 0x81 7 [0x00]).take 5 = [0xA5, 0x03, 0x81, 0x07, 0x00] := by decide +kernel

/-- R188: the sticky error set with TIMEOUT and CHECK in it is 0x0009. -/
theorem test_sticky_set : addSticky (addSticky 0 .timeout) .check = 0x0009#16 := by decide

/-- R187: one report of each kind, laid out by the table; an absent field is sent as 0, a station or mismatch as 0xFF. -/
theorem test_report_bodies :
    [Report.stationData 47 [9, 8], .commandDone 0x0201#16 none .sent true 3 none [7],
        .stationState 5 .offline .b 255 (some .lost), .lineState .a .monitor true (some .stuck),
        .scanDone .b .cancelled [3, 250], .testDone .a .aborted 4 3 none,
        .capture .b 30 (some 7) (some true) none [] true false true].map Report.bytes
      = [[1, 47, 2, 9, 8], [2, 0x01, 0x02, 0xFF, 3, 1, 3, 0, 1, 7], [3, 5, 4, 1, 255, 7], [4, 0, 2, 1, 5],
        [5, 1, 2, 2, 3, 250], [6, 0, 2, 4, 3, 0xFF], [7, 1, 30, 0x1D, 7, 1, 0, 0]] := by decide +kernel

/-! ### One step of each kind -/

/-- R177: CTS falls at reset with HELLO POWER_ON waiting: cause 1, revision 1 (R186). -/
theorem test_hello :
    (after .ctsFall State.reset).link.sending.map (·.bytes.take 6) = some [0xA5, 0x04, 0x83, 0x00, 0x01, 0x01] := by decide +kernel

/-- R184: an empty body, and a request one byte too long, are answered BAD_REQUEST, code 4. -/
theorem test_bad_request :
    (after .unknownRequestCode (asked [])).link.responses = [⟨7, [0x04], false⟩]
      ∧ (after .restart (asked [0x04, 0x00])).link.responses = [⟨7, [0x04], false⟩] := by decide +kernel

/-- R49, R50, R188: a CHECK_FAIL with the toggle wrong passes the checks, a DATA with the toggle wrong fails TOGGLE, and a complete frame of kind code 0x7 fails BAD_KIND. -/
theorem test_judge :
    judge .poll 3 true ⟨lineFrame 3 0x0D [], false, none⟩ = .passes .checkFail
      ∧ judge .poll 3 true ⟨lineFrame 3 0x08 [1], false, none⟩ = .fails .toggle
      ∧ judge .poll 3 true ⟨lineFrame 3 0x17 [], false, none⟩ = .fails .badKind := by decide +kernel

/-- R61: a POLL that goes unanswered at its last attempt releases its reservation. -/
theorem test_poll_fails :
    let t := after (.replyStartTimeout .a)
      (busy { exchange .poll .await with attempt := 3 } (pooled (record none .queued)))
    t.queue.reservations = 0 ∧ (t.station 47).map (·.pollTimer) = some (some 500) := by decide +kernel

/-- Chapter 6, worked sequence: the final GAP of station 11's failed POLL moves it to line B, 0x0400 completes RESYNC,
0x0401 and 0x0402 follow, and the notice is set. -/
theorem test_failover :
    let q (tag : Half) (transmitted : Bool) : CommandRecord :=
      ⟨tag, some 11, .a, 0, [1], .queued, 0, none, transmitted, false⟩
    let e : Station :=
      { unit with address := 30, state := .suspect, failures := 2, retryLimit := 1, pollTimer := some 1000 }
    let x : Exchange :=
      { exchange .poll .gap with station := some 11, outcome := some .failed, holdsReservation := false }
    let s := (busy x (State.reset.setStation 11 (some e))).onLine .b fun ln => { ln with mode := .active }
    let t := after (.gapExpiry .a) { s with
      pool := ⟨[q 0x0400 true, q 0x0401 false, q 0x0402 false], 3⟩, queue := ⟨[], 3, 0⟩ }
    t.pool.records.map (·.tag) = [0x0401, 0x0402] ∧ t.pool.records.map (·.line) = [.b, .b]
      ∧ t.queue.entries.length = 1 ∧ t.queue.reservations = 2 ∧ t.lineB.probeList = [11]
      ∧ t.station 11
        = some { e with
            current := .b, state := .probing, failures := 0, pollTimer := none, probeTimer := some 0, notice := true
            changeCount := 1, lastCause := some .failover, counters := { e.counters with lineSwitches := 1 } } := by
  decide +kernel

/-- Chapter 9, worked sequence: ACK 2001 taken while 2000 is on the wire and the run stands at 2001 leaves 2002 and 2003
sent, the run at 2002, the count 0 and the timer at 100 ms. -/
theorem test_late_acknowledgement :
    let frame := hostFrame 0x02 0 (le16 2001)
    let s := (collecting frame (waiting ((List.range 6).map fun i => entry (BitVec.ofNat 16 (2000 + i)) (i < 4)))).onSession
      fun c => { c with timeout := 100, retransmissions := 1, run := some 2001 }
    let t := after (.ack (frame.getLastD 0)) s
    t.queue.entries.map (·.seq) = [2002, 2003, 2004, 2005] ∧ t.queue.entries.map (·.sent) = [true, true, false, false]
      ∧ t.link.session.run = some 2002 ∧ t.link.session.retransmissions = 0 ∧ t.link.session.ackTimer = some 100 := by
  decide +kernel

/-- Chapter 7, worked sequence, choice 4: address 43 is claimed on line B by its station's alternate line, and 44 is
named and taken. -/
theorem test_scan_skips_a_claimed_address :
    let s := (withUnit { unit with address := 43 }).onLine .b fun ln =>
      { ln with mode := .active, scanCount := 3, scan := some ⟨40, 47, 43, [41], false⟩ }
    let t := after (.schedulerChoice .b) s
    t.lineB.exchange.map (·.target) = some 44 ∧ t.lineB.exchange.map (·.kind) = some .rollCall
      ∧ t.lineB.scan.map (·.next) = some 45 ∧ t.lineB.scanCount = 4 := by decide +kernel

/-- R139: frame 3 of a line test has toggle 1 and carries (7 × 3 + p) mod 256 at position p. -/
theorem test_line_test_frame :
    (testFrame 3).take 5 = [0x00, 0x14, 0x20, 21, 22] ∧ (testFrame 3).length = 37 ∧ (testFrame 40).getD 3 0 = 24 := by
  decide +kernel

/-! ### The statements' hypotheses are met: the step, power-on, the host frames -/

theorem witness_StepTakesTheFrontCommand :
    ({ State.reset with pending := [.ctsRise, .ctsFall] } : State).pending = .ctsRise :: [.ctsFall] := rfl

theorem witness_IdlePartCountsOneMillisecond : (waiting []).pending = [] ∧ ownStep (waiting []) = none := by
  decide +kernel

theorem witness_PowerOnResetsThePart : ({ State.reset with inReset := true } : State).inReset = true := rfl

/-- The host receiver waits for mark after a framing error. -/
def deaf (s : State := State.reset) : State := { s with link := { s.link with awaitsMark := true } }

/-- R162: after a byte with a framing error the next byte is not taken; after a start bit it is. -/
theorem test_host_framing_error :
    let s := after (.byteDiscarded 0x41 true) State.reset
    s.link.awaitsMark = true ∧ ran (.hostByteReceived 0xA5) s = some s
      ∧ (after (.hostByteReceived 0xA5) (after .hostStartBitAccepted s)).link.assembler = some ⟨[], some 10⟩ := by
  decide +kernel

/-- LENGTH 2 and 66, the first byte after LENGTH, and the last but one of the longest frame; in power-on reset, and
waiting for mark. -/
theorem witness_HostBytesAreCollected :
    (State.reset.inReset = false ∧ State.reset.link.awaitsMark = false ∧ State.reset.link.assembler = none)
    ∧ (0xA4#8 ≠ 0xA5#8 ∨ false = true) ∧ (0xA5#8 ≠ 0xA5#8 ∨ true = true)
    ∧ (∀ byte ∈ [2#8, 66#8], 2 ≤ byte.toNat ∧ byte.toNat ≤ 66)
    ∧ (after .powerOn State.reset).inReset = true ∧ deaf.link.awaitsMark = true ∧ deaf.inReset = false
    ∧ (collecting [0xA5, 0]).inReset = false ∧ (collecting [0xA5, 0]).link.awaitsMark = false
    ∧ (collecting [0xA5, 0]).link.assembler = some ⟨[], none⟩
    ∧ (collecting [0xA5, 2, 0]).link.assembler = some ⟨2#8 :: [], none⟩ ∧ ([] : List Byte).length + 1 < (2#8).toNat + 2
    ∧ (List.replicate 66 0#8).length + 1 < (66#8).toNat + 2 := by decide +kernel

/-- The three ways a frame is bad as a whole, and LENGTH 1 and 67. -/
theorem witness_HostFramesAreDiscarded :
    (collecting [0xA5, 0]).inReset = false ∧ (collecting [0xA5, 0]).link.awaitsMark = false
    ∧ (collecting [0xA5, 0]).link.assembler = some ⟨[], none⟩ ∧ ((1#8).toNat < 2 ∨ 66 < (1#8).toNat)
    ∧ ((67#8).toNat < 2 ∨ 66 < (67#8).toNat)
    ∧ ((collecting [0xA5, 2, 1, 0, 9, 9]).link.assembler = some ⟨2#8 :: [1, 0, 9], none⟩ ∧ [1#8, 0, 9].length + 1 = 2 + 2
        ∧ ([1#8, 0, 9] ++ [9]).drop 2 ≠ [lowByte (crc16 [2, 1, 0]), highByte (crc16 [2, 1, 0])])
    ∧ ([0x03#8, 0, 9].head? ≠ some 0x01#8 ∧ [0x03#8, 0, 9].head? ≠ some 0x02#8)
    ∧ ([0x02#8, 0, 9].head? = some 0x02#8 ∧ (2#8).toNat ≠ 4)
    ∧ (⟨[2], some 10⟩ : HostPartial).timer.isSome := by decide +kernel

/-- The bytes of IDENTIFY as request 7. -/
def identifyFrame : List Byte := hostFrame 0x01 7 [0x01]

/-- The request they make. -/
def identifyRequest : Request := ⟨7, crc16 [3, 0x01, 7, 0x01], [0x01]⟩

/-- A link on which that request is cached, waits, finds the intake full or the response queue full. -/
def arriving (cached waits fullIntake fullResponses : Bool) : State :=
  let s := collecting identifyFrame (waiting [])
  { s with
    link := { s.link with
      cache := if cached then [⟨7, identifyRequest.crc, [0]⟩] else []
      intake := (if waits then [identifyRequest] else []) ++ if fullIntake then List.replicate 4 (rq [0x06]) else []
      responses := if fullResponses then List.replicate 8 ⟨1, [0], false⟩ else List.replicate 7 ⟨1, [0], false⟩ } }

theorem witness_RequestsArriveAtTheIntake :
    (∀ s ∈ [arriving true false false false, arriving true false false true, arriving false true false false,
        arriving false false true false, arriving false false true true, arriving false false false true],
      s.inReset = false ∧ s.link.awaitsMark = false
        ∧ s.link.assembler = some ⟨(identifyFrame.drop 1).dropLast, none⟩
        ∧ s.link.session.state ≠ .stalled)
    ∧ 0xA5#8 :: ((identifyFrame.drop 1).dropLast ++ [identifyFrame.getLastD 0]) = hostFrame 0x01 7 [0x01] := by
  decide +kernel

/-- Each of the six outcomes has its case. -/
theorem witness_RequestsArriveAtTheIntake_cases :
    (∀ q ∈ [true, false],
        ((arriving true false false q).link.cache.find? fun e => e.number == 7 && e.crc == identifyRequest.crc)
            = some ⟨7, identifyRequest.crc, [0]⟩)
    ∧ (arriving true false false false).link.responses.length + 0 < 8
    ∧ ¬(arriving true false false true).link.responses.length + 0 < 8
    ∧ ((arriving false true false false).link.cache.find? fun e => e.number == 7 && e.crc == identifyRequest.crc) = none
    ∧ identifyRequest ∈ (arriving false true false false).link.intake
    ∧ (∀ q ∈ [true, false], 4 ≤ (arriving false false true q).link.intake.length
        ∧ ¬(∃ r ∈ (arriving false false true q).link.intake, r.number = 7 ∧ r.crc = identifyRequest.crc))
    ∧ (arriving false false false true).link.intake.length < 4 := by decide +kernel

/-- The bytes of an acknowledgement of report 1. -/
def ackFrame : List Byte := hostFrame 0x02 0 [1, 0]

theorem witness_ValidFramesEndAStall :
    let stalled (frame : List Byte) :=
      (collecting frame (waiting [entry 0 true])).onSession fun c => { c with state := .stalled, retransmissions := 6 }
    (∀ frame ∈ [identifyFrame, ackFrame],
      (stalled frame).inReset = false ∧ (stalled frame).link.awaitsMark = false
        ∧ (stalled frame).link.assembler = some ⟨(frame.drop 1).dropLast, none⟩
        ∧ (stalled frame).link.session.state = .stalled)
    ∧ 0xA5#8 :: ((identifyFrame.drop 1).dropLast ++ [identifyFrame.getLastD 0]) = hostFrame 0x01 7 [0x01]
    ∧ 0xA5#8 :: ((ackFrame.drop 1).dropLast ++ [ackFrame.getLastD 0]) = hostFrame 0x02 0 [1, 0] := by decide +kernel

/-- A sent entry stays behind the one acknowledged; none does; the number is of no sent entry. -/
theorem witness_AcknowledgementsRemoveEntries :
    let s (entries : List Entry) := collecting ackFrame (waiting entries)
    (∀ es ∈ [[entry 0 true, entry 1 true, entry 2 true], [entry 0 true, entry 1 true], [entry 0 true, entry 1 false]],
      (s es).inReset = false ∧ (s es).link.awaitsMark = false ∧ (s es).link.assembler = some ⟨(ackFrame.drop 1).dropLast, none⟩
        ∧ (s es).link.session.state ≠ .stalled ∧ (s es).queue.entries = es)
    ∧ 0xA5#8 :: ((ackFrame.drop 1).dropLast ++ [ackFrame.getLastD 0]) = hostFrame 0x02 0 [lowByte 1#16, highByte 1#16]
    ∧ (entry 1 true).seq = 1#16 ∧ (entry 1 true).sent = true ∧ (∀ x ∈ [entry 0 true], x.seq ≠ 1#16)
    ∧ (∃ x ∈ [entry 2 true], x.sent = true) ∧ (∀ x ∈ ([] : List Entry), x.sent = false)
    ∧ (∀ x ∈ [entry 0 true, entry 1 false], x.sent = true → x.seq ≠ 1#16) := by decide +kernel

/-- The shortest body, and the longest; a receiver that takes no samples, one that seeks a frame, and one in a frame. -/
theorem witness_HostRequestFramesReachTheIntake :
    ((after .powerOn State.reset).inReset = true ∧ deaf.link.awaitsMark = true
      ∧ (collecting [0xA5, 0]).inReset = false ∧ (collecting [0xA5, 0]).link.awaitsMark = false
      ∧ (collecting [0xA5, 0]).link.assembler.isSome)
    ∧ State.reset.inReset = false ∧ State.reset.link.awaitsMark = false ∧ State.reset.link.assembler = none
    ∧ State.reset.link.session.state ≠ .stalled
    ∧ State.reset.link.cache = [] ∧ State.reset.link.intake ++ State.reset.link.held.toList = []
    ∧ ∀ body ∈ [[], List.replicate 64 0xFF#8], body.length ≤ 64
        ∧ hostFrame 0x01 7 body = (hostFrame 0x01 7 body).dropLast ++ [(hostFrame 0x01 7 body).getLastD 0] := by
  decide +kernel

/-! ### Requests at the head of the intake -/

/-- A request one byte too long, an unknown code, a session still CLOSED; and the three reasons to wait. -/
theorem witness_RequestsWaitOrAreRefused :
    let closed := (asked [0x03]).onSession fun c => { c with state := .closed }
    let taken (s : State) := 8 ≤ s.link.responses.length + (if s.link.held.isSome then 1 else 0)
      ∨ s.link.restartWaiting = true ∨ s.link.held.isSome
    (AtHead (asked [0x03, 0]) (rq [0x03, 0]) [] ∧ requestLength [0x03, 0] ≠ some 2)
    ∧ (AtHead (asked [0x07]) (rq [0x07]) [] ∧ requestLength [0x07] = none) ∧ requestLength [] = none
    ∧ (AtHead closed (rq [0x03]) [] ∧ requestLength [0x03] = some 1 ∧ closed.link.session.state = .closed
        ∧ requestCode [0x03] ≠ some 0x01 ∧ requestCode [0x03] ≠ some 0x02)
    ∧ taken (arriving false false false true)
    ∧ taken ((asked [0x03]).onLink fun k => { k with restartWaiting := true })
    ∧ taken ((asked [0x03]).onLink fun k => { k with held := some (rq [0x42, 0]) }) := by decide +kernel

/-- Every request body used below is handed to its owner. -/
theorem witness_Handed :
    ∀ body ∈ ([[0x03], [0x04], [0x05, 0], [0x05, 1], [0x06], [0x12, 47], [0x13, 47], [0x14, 47], [0x15, 47], [0x15, 48],
        [0x16, 47, 1], [0x17, 47], [0x32, 0x00, 0x02], [0x42, 0], [0x44, 1], [0x47, 1], [0x50, 15], [0x51, 16],
        [0x52, 3, 4]] : List (List Byte)), Handed (asked body) (rq body) [] := by decide +kernel

/-- The window at 1 and 16, the timeout at 50 and 5000, and each just outside. -/
theorem witness_SessionsOpenAndClose :
    let inRange (window low high : Byte) := 1 ≤ window.toNat ∧ window.toNat ≤ 16 ∧ 50 ≤ low.toNat + 256 * high.toNat
      ∧ low.toNat + 256 * high.toNat ≤ 5000
    inRange 1 50 0 ∧ inRange 16 0x88 0x13 ∧ ¬inRange 0 50 0 ∧ ¬inRange 17 50 0 ∧ ¬inRange 1 49 0 ∧ ¬inRange 1 0x89 0x13
    ∧ AtHead (asked [0x02, 16, 0x88, 0x13, 1]) (rq [0x02, 16, 0x88, 0x13, 1]) [] := by decide +kernel

theorem witness_RestartWaitsForItsResponse : Handed (asked [0x04]) (rq [0x04]) [] := by decide +kernel

theorem witness_RestartIsTakenAsAWhole :
    ((busy (exchange .poll .transmit)).onLink fun k => { k with sending := some ⟨.restartResponse, [0]⟩ }).link.sending
      = some ⟨.restartResponse, [0]⟩ := by decide +kernel

theorem witness_IdentityAndStatusAreReturned :
    AtHead ((asked [0x01]).onSession fun c => { c with state := .closed }) (rq [0x01]) []
    ∧ Handed (asked [0x05, 1]) (rq [0x05, 1]) [] ∧ Handed (asked [0x06]) (rq [0x06]) [] := by decide +kernel

/-! ### Station requests -/

/-- The ranges of R12, with DEFAULT replaced. -/
abbrev defineInRange (n address home alternate : Byte) (period retryLimit offlineThreshold : Nat) : Prop :=
  n.toNat ≤ 47 ∧ 1 ≤ address.toNat ∧ address.toNat ≤ 250 ∧ home.toNat ≤ 1
    ∧ (alternate.toNat ≤ 1 ∨ alternate = 0xFF) ∧ alternate ≠ home ∧ (period = 0 ∨ 10 ≤ period ∧ period ≤ 60000)
    ∧ retryLimit ≤ 7 ∧ 1 ≤ offlineThreshold ∧ offlineThreshold ≤ 15

/-- The least and greatest parameters; the station number 48; an entry defined already; an address claimed. -/
theorem witness_DefineStationFillsAnEntry :
    (defineInRange 0 1 0 1 0 0 1 ∧ defineInRange 47 250 1 0xFF 60000 7 15 ∧ defineInRange 46 3 0 0xFF 10 7 15)
    ∧ (¬defineInRange 48 1 0 1 0 0 1 ∧ ¬defineInRange 0 251 0 1 0 0 1 ∧ ¬defineInRange 0 1 0 0 0 0 1
        ∧ ¬defineInRange 0 1 0 1 9 0 1 ∧ ¬defineInRange 0 1 0 1 0 8 1 ∧ ¬defineInRange 0 1 0 1 0 0 16) := by
  refine ⟨⟨?_, ?_, ?_⟩, ?_, ?_, ?_, ?_, ?_, ?_⟩ <;> decide

theorem witness_DefineStationFillsAnEntry_entries :
    (∀ n ∈ [46#8, 47#8, 48#8],
        Handed (asked [0x10, n, 3, 0, 0xFF, 10, 0, 7, 15, 1] withUnit) (rq [0x10, n, 3, 0, 0xFF, 10, 0, 7, 15, 1]) [])
    ∧ ((asked [] withUnit).station 47).isSome ∧ (asked [] withUnit).station 46 = none ∧ (asked []).station 46 = none
    ∧ (asked [] withUnit).station 47 = some unit ∧ unit.address = 3 ∧ unit.home = .a := by decide +kernel

/-- Where no station is defined no line carries an address. -/
theorem witness_DefineStationFillsAnEntry_free :
    ¬∃ m e, State.reset.station m = some e ∧ e.address = 3 ∧ (e.home = .a ∨ e.alternate = some .a) := by
  rintro ⟨m, e, h, -⟩
  simp [State.station, State.reset] at h

theorem witness_ModifyStationWritesTheParameters :
    ∀ body ∈ ([[0x11, 47, 0, 0, 7, 15], [0x11, 47, 10, 0, 0, 1], [0x11, 48, 0x60, 0xEA, 7, 15], [0x11, 47, 9, 0, 8, 16]] :
      List (List Byte)), Handed (asked body withUnit) (rq body) [] := by decide +kernel

theorem witness_RemoveStationEmptiesTheEntry :
    Handed (asked [0x12, 47] (pooled (record (some 47) .queued))) (rq [0x12, 47]) []
    ∧ TagsDistinct (asked [0x12, 47] (pooled (record (some 47) .queued))) := by decide +kernel

theorem witness_StationsAreEnabledAndDisabled :
    Handed (asked [0x13, 47] withUnit) (rq [0x13, 47]) []
    ∧ Handed (asked [0x14, 47] (pooled (record (some 47) .queued))) (rq [0x14, 47]) []
    ∧ TagsDistinct (asked [0x14, 47] (pooled (record (some 47) .queued))) := by decide +kernel

theorem witness_ReadStationReturnsTheEntry :
    Handed (asked [0x15, 47] withUnit) (rq [0x15, 47]) [] ∧ Handed (asked [0x15, 48]) (rq [0x15, 48]) [] := by
  decide +kernel

theorem witness_ClearStationErrorsClearsTheRecord :
    let s := asked [0x16, 47, 1] (busy (exchange .poll .await))
    Handed s (rq [0x16, 47, 1]) [] ∧ s.station (47#8).toNat = some unit
    ∧ (s.line .a).exchange = some (exchange .poll .await) ∧ (exchange .poll .await).station = some (47#8).toNat
    ∧ (exchange .poll .await).phase = .await ∧ (exchange .poll .await).kind ≠ .rollCall ∧ 1#8 ≠ 0#8 := by decide +kernel

/-- After CLEAR_STATION_ERRORS each of the five rows fails an attempt, and its kind enters the emptied set. -/
theorem witness_ClearStationErrorsClearsTheRecord_failures :
    let frame := lineFrame 3 (controlByte 0xD true false) []
    let waits (chars : List Byte) := (busy (exchange .poll .receive)).onLine .a fun ln =>
      { ln with assembler := some ⟨chars, false, some 3⟩ }
    ∀ c ∈ [(Instr.replyStartTimeout .a, busy (exchange .poll .await), FailureKind.timeout),
        (.addressCharacterReceived .a 3 false, waits [3], .truncated),
        (.lengthAbandon .a 33 true, waits [3, 8], .framing), (.intercharacterTimeout .a, waits [3], .truncated),
        (.frameReceived .a (frame.getLastD 0) false, waits frame.dropLast, .nak)],
      let s := asked [0x16, 47, 1] c.2.1
      let t := after .clearStationErrors s
      let u := after c.1 t
      Handed s (rq [0x16, 47, 1]) [] ∧ (47#8).toNat ≤ 47 ∧ ran .clearStationErrors s = some t ∧ ran c.1 t = some u
        ∧ (u.station 47).bind (·.lastFailure) = some c.2.2 := by decide +kernel

theorem witness_RequestPollSetsTheDueMark :
    Handed (asked [0x17, 47] withUnit) (rq [0x17, 47]) [] ∧ Handed (asked [0x17, 48]) (rq [0x17, 48]) [] := by
  decide +kernel

/-! ### Commands -/

/-- Payloads of 0, 1, 32 and 33 characters. -/
theorem witness_SubmissionsCreateRecords :
    ∀ length ∈ [0#8, 1, 32, 33],
      (List.replicate length.toNat 0#8).length = length.toNat
      ∧ Handed (asked (0x30 :: 0 :: 2 :: 47 :: length :: List.replicate length.toNat 0) withUnit)
          (rq (0x30 :: 0 :: 2 :: 47 :: length :: List.replicate length.toNat 0)) []
      ∧ Handed (asked (0x31 :: 0 :: 2 :: 1 :: length :: List.replicate length.toNat 0))
          (rq (0x31 :: 0 :: 2 :: 1 :: length :: List.replicate length.toNat 0)) [] := by decide +kernel

theorem witness_CancelCommandFindsTheRecord :
    (∀ state ∈ [RecordState.queued, .inFlight],
      Handed (asked [0x32, 0, 2] (pooled (record (some 47) state))) (rq [0x32, 0, 2]) []
      ∧ TagsDistinct (asked [0x32, 0, 2] (pooled (record (some 47) state)))
      ∧ record (some 47) state ∈ (asked [0x32, 0, 2] (pooled (record (some 47) state))).pool.records
      ∧ (record (some 47) state).tag = BitVec.ofNat 16 ((0#8).toNat + 256 * (2#8).toNat)
      ∧ (record (some 47) state).state = state)
    ∧ Handed (asked [0x32, 1, 2] (pooled (record (some 47) .queued))) (rq [0x32, 1, 2]) []
    ∧ (∀ q ∈ (asked [0x32, 1, 2] (pooled (record (some 47) .queued))).pool.records,
        q.tag ≠ BitVec.ofNat 16 ((1#8).toNat + 256 * (2#8).toNat)) := by decide +kernel

/-! ### Line requests -/

/-- A line test that awaits its frame. -/
def awaitedTest : LineTest :=
  { count := 3, index := 0, framesSent := 1, framesMatched := 0, firstMismatch := none, phase := .awaiting
    charsSent := 37, delivered := true, handed := none, timer := some 20 }

/-- Line A in TEST with a test. -/
def testing (t : LineTest) (s : State := State.reset) : State := lineIn .test (fun ln => { ln with test := some t }) s

/-- Line or mode out of range; the line's own mode; the wait; the exchange cut off; the test ended; the change. -/
theorem witness_SetLineModeChangesTheMode :
    let b : List Byte := [0x40, 0, 2]
    let sending := asked b (busy (exchange .poll .transmit))
    let awaiting := asked b (busy (exchange .poll .await))
    let tested := asked b (testing awaitedTest)
    (1 < (2#8).toNat ∨ 2 < (0#8).toNat) ∧ (1 < (1#8).toNat ∨ 2 < (3#8).toNat)
    ∧ (∀ body ∈ ([[0x40, 2, 0], [0x40, 1, 3]] : List (List Byte)), Handed (asked body) (rq body) [])
    ∧ (∀ s ∈ [asked b (lineIn .monitor), sending, awaiting, tested, asked b], Handed s (rq b) [])
    ∧ ((asked b (lineIn .monitor)).line .a).mode = .monitor
    ∧ ((sending.line .a).mode ≠ .monitor ∧ (sending.line .a).transmitting = true)
    ∧ ((awaiting.line .a).mode = .active ∧ (awaiting.line .a).transmitting = false)
    ∧ ((tested.line .a).mode = .test ∧ (tested.line .a).transmitting = false
        ∧ (tested.line .a).test = some awaitedTest)
    ∧ (((asked b).line .a).mode ≠ .monitor ∧ ((asked b).line .a).transmitting = false
        ∧ ((asked b).line .a).mode = .off) := by
  decide +kernel

/-- The greatest values, the least, and DEFAULT for all. -/
theorem witness_LinesAreConfiguredAndCleared :
    (∀ body ∈ ([[0x41, 1, 8, 2, 255, 15, 63, 0x60, 0xEA, 0x88, 0x13, 15, 8, 8],
        [0x41, 0, 1, 1, 2, 1, 2, 100, 0, 5, 0, 1, 1, 1], [0x41, 0, 0, 0, 0, 0, 0, 0, 0, 0, 0, 0, 0, 0],
        [0x41, 0, 9, 3, 1, 16, 64, 99, 0, 4, 0, 16, 9, 9]] : List (List Byte)),
      Handed (asked body) (rq body) [])
    ∧ Handed (asked [0x47, 1]) (rq [0x47, 1]) [] := by decide +kernel

theorem witness_ResetLineProbesItsStations :
    let b : List Byte := [0x42, 0]
    let sending := asked b (busy (exchange .poll .transmit))
    let awaiting := asked b (busy (exchange .poll .await))
    let tested := asked b (testing awaitedTest)
    (1 < (2#8).toNat) ∧ Handed (asked [0x42, 2]) (rq [0x42, 2]) []
    ∧ (∀ s ∈ [sending, awaiting, tested, asked b (pooled (record (some 47) .queued))],
        Handed s (rq b) [] ∧ TagsDistinct s)
    ∧ (sending.line .a).transmitting = true
    ∧ ((awaiting.line .a).transmitting = false ∧ (awaiting.line .a).mode = .active)
    ∧ ((tested.line .a).mode = .test ∧ (tested.line .a).transmitting = false
        ∧ (tested.line .a).test = some awaitedTest)
    ∧ (((asked b (pooled (record (some 47) .queued))).line .a).transmitting = false
        ∧ ((asked b (pooled (record (some 47) .queued))).line .a).mode = .off) := by decide +kernel

theorem witness_ScansAndTestsStart :
    ∀ body ∈ ([[0x43, 0, 1, 32], [0x43, 1, 219, 250], [0x43, 0, 0, 0], [0x43, 0, 1, 33], [0x44, 0], [0x44, 2],
        [0x45, 0, 1], [0x45, 1, 255], [0x45, 0, 0]] : List (List Byte)),
      Handed (asked body (lineIn .active)) (rq body) [] ∧ Handed (asked body) (rq body) [] := by decide +kernel

/-- A scan that has heard its first and its last address. -/
def heard : Scan := { first := 1, last := 32, next := 33, responders := [1, 32], rollCall := false }

theorem witness_ReadLineStatusReturnsTheLine :
    let s := asked [0x46, 0, 0] ((busy (exchange .poll .await)).onLine .a fun ln => { ln with scan := some heard })
    Handed s (rq [0x46, 0, 0]) [] ∧ (s.line .a).exchange = some (exchange .poll .await)
    ∧ (s.line .a).scan = some heard ∧ heard.responders.Nodup
    ∧ (∀ a ∈ heard.responders, heard.first ≤ a ∧ a < heard.first + 32)
    ∧ Handed (asked [0x46, 1, 0]) (rq [0x46, 1, 0]) [] ∧ ((asked [0x46, 1, 0]).line .b).exchange = none
    ∧ ((asked [0x46, 1, 0]).line .b).scan = none ∧ Handed (asked [0x46, 1, 1]) (rq [0x46, 1, 1]) []
    ∧ (∀ body ∈ ([[0x46, 2, 0], [0x46, 1, 2]] : List (List Byte)), Handed (asked body) (rq body) []) := by decide +kernel

/-- Masks 0, 15 and 16, indexes 3 and 4, functions 4 and 5. -/
theorem witness_OutputRequestsWriteLatchesAndFunctions :
    (∀ body ∈ ([[0x50, 0], [0x50, 15], [0x50, 16], [0x51, 15], [0x51, 16], [0x52, 3, 4], [0x52, 4, 0], [0x52, 0, 5]] :
      List (List Byte)), Handed (asked body) (rq body) [])
    ∧ 15 < (16#8).toNat ∧ (15#8).toNat ≤ 15 ∧ 3 < (4#8).toNat ∧ 4 < (5#8).toNat ∧ (3#8).toNat < 4 ∧ (4#8).toNat < 5 := by
  decide +kernel

/-! ### The host transmitter -/

/-- Report entries, a run's position and a window. -/
def windowed (entries : List Entry) (run : Option Half) (window : Nat) : State :=
  (waiting entries).onSession fun c => { c with run, window }

/-- The last byte of a frame and the bit times on both sides of its end. -/
theorem witness_HostFramesStartInTheirOrder_levels :
    State.reset.link.sending = none
    ∧ ∃ s ∈ [(waiting []).onLink fun k => { k with sending := some ⟨.response, [0xA5, 0xFE]⟩ }],
      s.link.sending = some ⟨.response, [0xA5, 0xFE]⟩ ∧ 10 * [0xA5#8, 0xFE].length ≤ 20
        ∧ [0xA5#8, 0xFE][19 / 10]? = some 0xFE ∧ [0xA5#8, 0xFE][0 / 10]? = some 0xA5
        ∧ (s.link.txPin 19, s.link.txPin 11, s.link.txPin 10, s.link.txPin 9) = (true, false, false, true) := by
  decide +kernel

/-- A response waits; a run stands at the last sent entry; the first unsent entry is next, the window one above the sent
entries; the window is reached, every entry is sent, or the session is not OPEN. -/
theorem witness_HostFramesStartInTheirOrder :
    let s := windowed [entry 0 true, entry 1 false] none 2
    let resent := windowed [entry 0 true, entry 1 true] (some 1#16) 2
    let answering := (waiting []).onLink fun k => { k with responses := [⟨7, [0], true⟩] }
    (∀ t ∈ [s, resent, answering], t.link.ctsLow = true ∧ t.link.sending = none)
    ∧ answering.link.responses = ⟨7, [0], true⟩ :: []
    ∧ (s.link.responses = [] ∧ s.link.session.state = .opened ∧ (s.queue.entries.map (·.seq)).Nodup
        ∧ s.queue.entries = [entry 0 true] ++ entry 1 false :: [] ∧ s.link.session.run = none
        ∧ (∀ x ∈ [entry 0 true], x.sent = true) ∧ (entry 1 false).sent = false
        ∧ (s.queue.entries.filter (·.sent)).length < s.link.session.window)
    ∧ (resent.link.responses = [] ∧ resent.link.session.state = .opened ∧ (resent.queue.entries.map (·.seq)).Nodup
        ∧ resent.queue.entries = [entry 0 true] ++ entry 1 true :: [] ∧ resent.link.session.run = some 1#16
        ∧ (entry 1 true).seq = 1#16) := by decide +kernel

/-- Nothing but a HELLO is left to start, in three ways; CTS is high; a frame is in progress. -/
theorem witness_HostFramesStartInTheirOrder_none :
    let reached := windowed [entry 0 true, entry 1 false] none 1
    let allSent := windowed [entry 0 true] none 2
    (reached.link.session.run = none
        ∧ reached.link.session.window ≤ (reached.queue.entries.filter (·.sent)).length)
    ∧ (allSent.link.session.run = none ∧ ∀ x ∈ allSent.queue.entries, x.sent = true)
    ∧ (State.reset.link.session.state ≠ .opened ∧ State.reset.link.responses = [] ∧ State.reset.link.sending = none)
    ∧ ((waiting []).onLink fun k => { k with ctsLow := false }).link.ctsLow = false
    ∧ ((waiting []).onLink fun k => { k with sending := some ⟨.report, []⟩ }).link.sending.isSome := by decide +kernel

/-- The retransmission count at 4 and at 5; a frame of each kind; the HELLO timer. -/
theorem witness_HostFramesEndAndLinkTimersExpire :
    (∀ count ∈ [4, 5], ∃ s ∈ [(windowed [entry 0 true] none 1).onSession fun c =>
        { c with ackTimer := some 0, retransmissions := count }],
      s.link.session.state = .opened ∧ s.link.session.ackTimer.isSome ∧ s.link.session.retransmissions = count)
    ∧ (∀ kind ∈ [HostFrameKind.response, .hello, .report],
        ((waiting []).onLink fun k => { k with ctsLow := false, sending := some ⟨kind, []⟩ }).link.sending
            = some ⟨kind, []⟩)
    ∧ ((waiting []).onLink fun k => { k with ctsLow := false, sending := some ⟨.hello, []⟩ }).link.ctsLow = false
    ∧ State.reset.link.helloTimer.isSome ∧ State.reset.link.helloRepeat = true := by decide +kernel

/-! ### The scheduler's choice -/

/-- Line A is free. -/
def free (s : State) : State := lineIn .active id s

/-- Station 47 is due, and it comes last in the walk; the last slot is free. -/
theorem witness_PollsAndProbesAreTaken_poll :
    let s : State := { free (withUnit { unit with pollDue := true }) with queue := ⟨[], 127, 0⟩ }
    ((s.line .a).mode = .active ∧ (s.line .a).stuck = false ∧ (s.line .a).exchange = none ∧ (s.line .a).ending = none
        ∧ (s.line .a).scan = none)
    ∧ (∀ q ∈ s.pool.records, q.state = .queued → q.line = .a → recordEligible s q = false)
    ∧ s.queue.entries.length + s.queue.reservations < 128 ∧ s.station 47 = some { unit with pollDue := true }
    ∧ (∀ m : Nat, m < 48 → ((m : Int) - (s.line .a).walk.elim 0 (fun w => (w : Int) + 1)) % 48 < 47 →
        pollEligible s .a m = false) := by decide +kernel

/-- The last slot is taken; and with the command streak reached the poll is taken although a broadcast waits. -/
theorem witness_PollsAndProbesAreTaken_streak :
    let s : State := { free (withUnit { unit with pollDue := true }) with queue := ⟨[], 128, 0⟩ }
    let streak := (pooled (record none .queued) (free (withUnit { unit with pollDue := true }))).onLine .a fun ln =>
      { ln with commandCount := 4 }
    (128 ≤ s.queue.entries.length + s.queue.reservations
        ∧ ∀ q ∈ s.pool.records, q.state = .queued → q.line = .a → recordEligible s q = false)
    ∧ ((streak.line .a).mode = .active ∧ (streak.line .a).stuck = false ∧ (streak.line .a).exchange = none
        ∧ (streak.line .a).ending = none ∧ (streak.line .a).scan = none)
    ∧ (streak.line .a).config.commandStreak ≤ (streak.line .a).commandCount
    ∧ recordEligible streak (record none .queued) = true
    ∧ ((after (.schedulerChoice .a) streak).line .a).exchange.map (·.kind) = some .poll := by decide +kernel

/-- Station 47 stands in the probe list behind an entry whose probe timer runs. -/
theorem witness_PollsAndProbesAreTaken_probe :
    let s : State := (free (withUnit { unit with state := .probing, probeTimer := some 0 })).onLine .a fun ln =>
      { ln with probeList := [46, 47] }
    ((s.line .a).probeList = [46] ++ 47 :: []
        ∧ s.station 47 = some { unit with state := .probing, probeTimer := some 0 } ∧ s.station 46 = none)
    ∧ (∀ m, m < 48 → pollEligible s .a m = false) := by decide +kernel

/-- A record of station 47, and a broadcast, wait behind a record of a station that is not ONLINE; one command fewer
than the streak has been, or no poll is startable, or no reservation can be granted. -/
theorem witness_CommandsAndBroadcastsAreTaken :
    let first : CommandRecord := { record (some 46) .queued with tag := 1 }
    ∀ station ∈ [some 47, none], ∃ s ∈ [((({ free withUnit with pool := ⟨[first, record station .queued], 2⟩ } : State))
        |>.onLine .a fun ln => { ln with commandCount := 3 })],
      ((s.line .a).mode = .active ∧ (s.line .a).stuck = false ∧ (s.line .a).exchange = none
          ∧ (s.line .a).ending = none ∧ (s.line .a).scan = none ∧ TagsDistinct s)
      ∧ (s.pool.records.filter fun c => c.state == .queued && c.line == .a) = [first] ++ record station .queued :: []
      ∧ recordEligible s first = false ∧ (s.line .a).commandCount < (s.line .a).config.commandStreak
      ∧ s.station 47 = some unit
      ∧ (∀ c ∈ s.pool.records.takeWhile (·.tag != 0x200#16), c.station ≠ some 47) := by decide +kernel

theorem witness_CommandsAndBroadcastsAreTaken_streak :
    (∀ m, m < 48 → pollEligible (free withUnit) .a m = false)
    ∧ 128 ≤ (full (free withUnit)).queue.entries.length + (full (free withUnit)).queue.reservations := by decide +kernel

/-- A scan of addresses 3 and 4 on a free line. -/
def scanning (s : State) : State :=
  (free s).onLine .a fun ln =>
    { ln with scan := some { first := 3, last := 4, next := 3, responders := [], rollCall := false }, scanCount := 3 }

theorem witness_ScansTakeTheLine :
    let s := scanning withUnit
    ((s.line .a).mode = .active ∧ (s.line .a).stuck = false ∧ (s.line .a).exchange = none ∧ (s.line .a).ending = none)
    ∧ (s.line .a).scan = some { first := 3, last := 4, next := 3, responders := [], rollCall := false }
    ∧ (s.line .a).scanCount < (s.line .a).config.scanStreak ∧ s.station 47 = some unit ∧ unit.address = 3
    ∧ (State.reset.line .a).mode ≠ .active := by decide +kernel

/-- At the scan streak: a poll of station 47 is startable; nothing is; and the choice without the scan is taken. -/
theorem witness_ScansTakeTheLine_streak :
    let reached (s : State) := (scanning s).onLine .a fun ln => { ln with scanCount := 4 }
    let due := withUnit { unit with pollDue := true }
    (reached due).queue.entries.length + (reached due).queue.reservations < 128
    ∧ pollEligible (reached due) .a 47 = true
    ∧ ((reached due).line .a).config.scanStreak ≤ ((reached due).line .a).scanCount
    ∧ ((after (.schedulerChoice .a) (reached due)).line .a).exchange.map (·.kind) = some .poll
    ∧ ((after (.schedulerChoice .a) (reached due)).line .a).scan.map (·.next) = some 4
    ∧ (∀ m, m < 48 → pollEligible (reached withUnit) .a m = false)
    ∧ ((reached withUnit).line .a).probeList = [] ∧ (reached withUnit).pool.records = [] := by decide +kernel

/-- Address 3 is claimed by station 47, and 4 by none; and with another station at 4 every remaining one is claimed. -/
theorem witness_ScansTakeTheLine_claims :
    (∃ n e, (scanning withUnit).station n = some e ∧ e.address = 3 ∧ (e.home = .a ∨ e.alternate = some .a))
    ∧ (¬∃ n e, (scanning withUnit).station n = some e ∧ e.address = 4 ∧ (e.home = .a ∨ e.alternate = some .a))
    ∧ ∀ a, 3 ≤ a → a ≤ 4 →
        ∃ n e, (scanning ((withUnit).setStation 0 (some { unit with address := 4 }))).station n = some e
          ∧ e.address = a ∧ (e.home = .a ∨ e.alternate = some .a) := by
  refine ⟨⟨47, unit, by decide +kernel⟩, ?_, fun a h3 h4 => ?_⟩
  · rintro ⟨n, e, h, ha, -⟩
    simp only [scanning, free, lineIn, withUnit, State.onLine, State.station, State.setStation] at h
    simp [State.reset, Vector.getElem_set] at h
    obtain ⟨-, -, rfl⟩ := h
    exact absurd ha (by decide)
  · obtain rfl | rfl : a = 3 ∨ a = 4 := by omega
    · exact ⟨47, unit, by decide +kernel⟩
    · exact ⟨0, { unit with address := 4 }, by decide +kernel⟩

/-! ### Frames on the line -/

/-- The last character but one, and the last, of each kind of frame. -/
theorem witness_CharactersAndFramesLeave :
    (∀ kind ∈ [ExchangeKind.poll, .probe, .rollCall, .command, .broadcast],
      let s := busy (exchange kind .transmit) (pooled (record none .inFlight))
      (s.line .a).ending = none ∧ (s.line .a).exchange = some (exchange kind .transmit)
        ∧ (exchange kind .transmit).phase = .transmit)
    ∧ (exchange .poll .transmit).frame[(exchange .poll .transmit).charsSent]?
        = some ((exchange .poll .transmit).frame.getD 4 0)
    ∧ ({ exchange .poll .transmit with charsSent := 3 } : Exchange).charsSent + 1 < (exchange .poll .transmit).frame.length
    ∧ (∀ kind ∈ [ExchangeKind.poll, .probe, .rollCall],
        (exchange kind .transmit).charsSent + 1 = (exchange kind .transmit).frame.length ∧ kind ≠ .broadcast
          ∧ (exchange kind .transmit).record = none)
    ∧ (exchange .command .transmit).record = some 0x200#16
    ∧ (let s := busy (exchange .broadcast .transmit) (pooled (record none .inFlight))
      (exchange .broadcast .transmit).record = some 0x200#16 ∧ TagsDistinct s
        ∧ record none .inFlight ∈ s.pool.records ∧ (record none .inFlight).tag = 0x200#16
        ∧ (record none .inFlight).station = none) := by decide +kernel

/-- A line whose character completes after RESTART, at space; a line test's stands on the internal loop. -/
def restarted (mode : LineMode) (looped : Bool := false) (s : State := State.reset) : State :=
  lineIn mode (fun ln => { ln with driver := !looped, ending := some (.restart ⟨5, true⟩ looped), rxMark := false }) s

/-- R25, R69: a line reset, a change to MONITOR and another RESTART leave the driver to the character that completes
after RESTART, and its end releases it; a receiver enabled in ACTIVE then waits for mark (R26). -/
theorem test_driver_after_restart :
    let responding := (restarted .off).onLink fun k => { k with sending := some ⟨.restartResponse, [0]⟩ }
    (∀ t ∈ [after .resetLine (asked [0x42, 0] (restarted .active)),
        after .setLineMode (asked [0x40, 0, 2] (restarted .active)), after .restartTaken responding],
      (t.line .a).driver = true ∧ (t.line .a).ending = some (.restart ⟨5, true⟩ false)
        ∧ ((after (.driverRelease .a) t).line .a).driver = false)
    ∧ ((after (.driverRelease .a) (restarted .active)).line .a).awaitsMark = true := by decide +kernel

/-- R23: RESTART during a line test leaves the character in the shift path to complete on the internal loop, its pin at
mark and no driver to hold; its end, and not before, puts the loop at mark. -/
theorem test_test_character_after_restart :
    let sending := lineIn .test fun ln =>
      { ln with test := some (LineTest.mk 3 0 0 0 none .sending 1 false none none) }
    let t := after .restartTaken (sending.onLink fun k => { k with sending := some ⟨.restartResponse, [0]⟩ })
    (t.line .a).ending = some (.restart ⟨4, false⟩ true) ∧ (t.line .a).mode = .off ∧ (t.line .a).driver = false
      ∧ (t.line .a).test = none ∧ (List.range 11).map (t.line .a).loopLevel = LineCharacter.levels 1 ⟨4, false⟩
      ∧ (∀ i ∈ List.range 11, (t.line .a).txPin i = true)
      ∧ ((after (.driverRelease .a) t).line .a).ending = none
      ∧ ((after (.driverRelease .a) t).line .a).loopLevel 0 = true := by decide +kernel

/-- RESTART finds a character of an exchange, of a line test, one left by an earlier RESTART, or none. -/
theorem witness_RestartIsTakenAsAWhole_characters :
    let x := exchange .poll .transmit
    (((busy x).line .a).exchange = some x ∧ x.phase = .transmit ∧ x.charsSent < x.frame.length
        ∧ ((busy x).line .a).mode = .active)
    ∧ (∀ looped ∈ [true, false], ((restarted .off looped).line .a).ending = some (.restart ⟨5, true⟩ looped))
    ∧ (State.reset.line .a).ending = none := by decide +kernel

theorem witness_GuardAndRestartReleaseTheDriver :
    (∀ kind ∈ [ExchangeKind.poll, .broadcast],
      ((busy (exchange kind .guard)).line .a).exchange = some (exchange kind .guard)
        ∧ (exchange kind .guard).phase = .guard)
    ∧ ((busy (exchange .broadcast .guard)).line .a).assembler = none
    ∧ (∀ mode ∈ [LineMode.off, .active], ∀ looped ∈ [true, false],
      ((restarted mode looped).line .a).ending = some (.restart ⟨5, true⟩ looped))
    ∧ ((lineIn .off).line .a).exchange = none ∧ ((lineIn .off).line .a).afterRestart = none
    ∧ ((busy (exchange .poll .guard)).line .a).afterRestart = none := by
  decide +kernel

/-- A request held until a character of line A has left. -/
def holding (e : LineEnding) (s : State) : State :=
  ((asked [] s).onLine .a fun ln => { ln with ending := some e }).onLink fun k => { k with held := some (rq []), intake := [] }

/-- A mode change and a line reset wait for the last character but one, and for the last, of each kind of frame. -/
theorem witness_HeldRequestsGoOn :
    ∀ kind ∈ [ExchangeKind.poll, .command, .broadcast], ∀ charsSent ∈ [3, (exchange kind .transmit).frame.length - 1],
      ∀ e ∈ [LineEnding.modeChange .off, .modeChange .monitor, .lineReset],
      let x : Exchange := { exchange kind .transmit with charsSent }
      let s := holding e (busy x)
      ((s.line .a).exchange = some x ∧ x.phase = .transmit ∧ x.charsSent + 1 ≤ x.frame.length
          ∧ (s.line .a).mode = .active ∧ (s.line .a).ending = some e)
        ∧ s.link.held = some (rq []) ∧ s.link.intake = [] ∧ s.link.responses.length < 8
        ∧ s.link.restartWaiting = false ∧ s.link.session.state ≠ .closed := by decide +kernel

/-- The last character of a BROADCAST completes while SET_LINE_MODE OFF waits: frames sent rises and the record is SENT;
and a line test's last character while RESET_LINE waits is a frame sent of the line and of the test. -/
theorem witness_HeldRequestsGoOn_last :
    (let s := holding (.modeChange .off) (busy (exchange .broadcast .transmit) (pooled { record none .inFlight with transmitted := false }))
      let t := after (.driverRelease .a) (s.onLink fun k => { k with held := some (rq [0x40, 0, 0]) })
      (t.line .a).counters.framesSent = 1 ∧ (t.line .a).mode = .off ∧ (t.line .a).driver = false ∧ t.pool.records = []
        ∧ t.queue.entries.map (·.report) = [.commandDone 0x200#16 none .sent true 1 none []])
    ∧ ∀ charsSent ∈ [35, 36], ∀ delivered ∈ [true, false], ∀ e ∈ [LineEnding.modeChange .active, .lineReset],
      let u : LineTest := { awaitedTest with phase := .sending, charsSent, delivered }
      let s := holding e (testing u)
      (s.line .a).exchange = none ∧ (s.line .a).test = some u ∧ (s.line .a).mode = .test ∧ u.phase = .sending
        ∧ u.charsSent ≤ 36 ∧ (s.line .a).ending = some e := by decide +kernel

/-- A DATA of 1 and of 32 characters is allowed to a POLL, one of 0 and kind code 0x7 to nothing; a CRC is wrong. -/
theorem witness_RepliesAreJudgedInOrder :
    let known : List (Nat × ReplyKind × List ExchangeKind × Nat × Nat) :=
      [(0x8, .data, [.poll, .probe], 1, 32), (0x9, .empty, [.poll, .probe], 0, 0), (0xA, .done, [.command], 0, 32),
        (0xB, .reject, [.command], 0, 32), (0xC, .busy, [.poll, .probe, .command], 0, 0),
        (0xD, .checkFail, [.poll, .probe, .command], 0, 0), (0xE, .present, [.rollCall], 0, 0)]
    (∀ length ∈ [1, 32], (0x8, .data, [.poll, .probe], 1, 32) ∈ known ∧ ExchangeKind.poll ∈ [ExchangeKind.poll, .probe]
      ∧ 1 ≤ (List.replicate length 0#8).length ∧ (List.replicate length 0#8).length ≤ 32)
    ∧ (∀ row ∈ known, row.1 ≠ 0x7 ∧ (row.1 = 0x8 → ¬row.2.2.2.1 ≤ ([] : List Byte).length))
    ∧ lineFrame 3 (controlByte 0x9 true false) []
        ≠ (lineFrame 3 (controlByte 0x9 true false) []).take 3 ++ [0, 0]
    ∧ (some AbandonCause.length).isSome ∧ (⟨[3], true, none⟩ : HandedUp).framing = true
    ∧ (⟨[3, 9, 0, 0, 0], false, none⟩ : HandedUp).chars = [3, 9, 0] ++ [0, 0]
    ∧ [3#8, 9, 0].length = 3 + ([3#8, 9, 0].getD 2 0).toNat
    ∧ [0#8, 0] ≠ [highByte (crc16 [3, 9, 0]), lowByte (crc16 [3, 9, 0])] := by decide +kernel

/-- R22, R40: with two stop bits character 0x03 with address mark 1 has twelve levels; its stop bit at space is a
framing error; at 9600 bit/s and one stop bit a character takes 16896 periods of the clock. A byte of HTXD has ten. -/
theorem test_character_levels :
    LineCharacter.levels 2 ⟨3, true⟩
      = [false, true, true, false, false, false, false, false, false, true, true, true]
    ∧ receivedCharacter [true, true, false, false, false, false, false, false, true, false] = (⟨3, true⟩, true)
    ∧ State.reset.lineA.config.characterClocks = 16896
    ∧ hostCharacterLevels 0xA5 = [false, true, false, true, false, false, true, false, true, true]
    ∧ ((after .ctsFall State.reset).link.txPin 0, (after .ctsFall State.reset).link.txPin 1, State.reset.link.txPin 0)
        = (false, true, true) := by decide +kernel

/-- R26, R28: at GUARD_END with the pin at space no character reaches the receiver until its input returns to mark. -/
theorem test_receiver_waits_for_mark :
    let s := after (.guardEnd .a) ((busy (exchange .poll .guard)).onLine .a fun ln => { ln with rxMark := false })
    let samples := [true, true, false, false, false, false, false, false, true, true]
    (s.line .a).receipt .a samples = none ∧ ran (.addressCharacterReceived .a 3 false) s = some s
      ∧ ((after (.receiveInputLevelChange .a true) s).line .a).receipt .a samples
          = some (.addressCharacterReceived .a 3 false) := by decide +kernel

/-- A receiver of each kind: disabled, waiting for mark, outside the receive window, and open, before and in a frame. -/
theorem witness_LineFramesAreCapturedWhole_receipt :
    let deaf (ln : Line) := ln.mode = .off ∨ (ln.mode = .active ∧ ln.driver = true) ∨ (ln.mode ≠ .test ∧ ln.awaitsMark = true)
    (deaf State.reset.lineA ∧ deaf (busy (exchange .poll .transmit)).lineA
      ∧ deaf (lineIn .monitor fun ln => { ln with awaitsMark := true }).lineA)
    ∧ (¬deaf (lineIn .active).lineA ∧ (lineIn .active).lineA.exchange = none)
    ∧ ∀ chars ∈ [[3#8, 8], [3, 8, 0, 9], [3, 8, 32]],
      let s := (lineIn .monitor).onLine .a fun ln => { ln with assembler := some ⟨chars, false, some 3⟩ }
      ¬deaf s.lineA ∧ s.lineA.mode ≠ .active ∧ s.lineA.assembler = some ⟨chars, false, some 3⟩ := by decide +kernel

/-- The shortest frame and the longest. -/
theorem witness_LineFramesAreCapturedWhole :
    let s := lineIn .monitor
    ((s.line .a).mode = .monitor ∧ (s.line .a).awaitsMark = false ∧ (s.line .a).assembler = none
        ∧ (s.line .a).exchange = none
        ∧ s.queue.entries.length + s.queue.reservations < 128)
    ∧ ((State.reset.line .a).config.stopBits = 1 ∧ ({ State.reset.lineA.config with stopBits := 2 } : LineConfig).stopBits = 2)
    ∧ ∀ payload ∈ [[], List.replicate 32 0xFF#8], ∃ frame ∈ [lineFrame 255 (controlByte 15 true true) payload],
        payload.length ≤ 32
          ∧ frame = frame.headD 0 :: ((frame.drop 1).dropLast ++ [frame.getLastD 0]) := by decide +kernel

/-- At the retry limit, and one above it: a POLL, a PROBE, and a COMMAND with its record. -/
theorem witness_UnansweredAttemptsFail :
    (∀ kind ∈ [ExchangeKind.poll, .probe, .command], ∀ attempt ∈ [2, 3],
      let x : Exchange := { exchange kind .await with attempt }
      let s := busy x (pooled (record (some 47) .inFlight))
      ((s.line .a).exchange = some x ∧ x.phase = .await ∧ (s.line .a).assembler = none)
        ∧ (x.station = some 47 ∧ s.station 47 = some unit ∧ (x.attempt ≤ unit.retryLimit ∨ unit.retryLimit < x.attempt))
        ∧ (kind ≠ .command → x.record = none ∧ x.holdsReservation = true))
    ∧ (let s := busy { exchange .command .await with attempt := 3 } (pooled (record (some 47) .inFlight))
      TagsDistinct s ∧ record (some 47) .inFlight ∈ s.pool.records
        ∧ (exchange .command .await).record = some (record (some 47) .inFlight).tag
        ∧ (record (some 47) .inFlight).station = some 47
        ∧ (∀ c ∈ s.pool.records.takeWhile (·.tag != (record (some 47) .inFlight).tag), c.station ≠ some 47)) := by
  decide +kernel

/-- A ROLL_CALL without a scan, with one that waits for none, within one, and at its last address. -/
theorem witness_UnansweredAttemptsFail_rollCall :
    ((busy (exchange .rollCall .await)).line .a).exchange = some (exchange .rollCall .await)
    ∧ ((busy (exchange .rollCall .await)).line .a).scan = none
    ∧ (let sc : Scan := { first := 3, last := 4, next := 4, responders := [], rollCall := false }
      ((lineIn .active fun ln => { ln with exchange := some (exchange .rollCall .await), scan := some sc }).line .a).scan
        = some sc)
    ∧ ∀ next ∈ [4, 5], ∃ sc ∈ [({ first := 3, last := 4, next, responders := [], rollCall := true } : Scan)],
        ((lineIn .active (fun ln => { ln with exchange := some (exchange .rollCall .await), scan := some sc })).line
            .a).scan = some sc
          ∧ sc.rollCall = true ∧ (sc.next ≤ sc.last ↔ next = 4) := by decide +kernel

/-- A line that has received all but the last character of a reply to an exchange. -/
def replied (x : Exchange) (control : Byte) (payload : List Byte) (s : State := withUnit) : State :=
  (busy x s).onLine .a fun ln =>
    { ln with assembler := some ⟨(lineFrame x.target control payload).dropLast, false, none⟩ }

/-- PRESENT without a scan, with one that waits for none, within one, and at its last address, whatever its toggle,
resync mark and bits 7 and 6. -/
theorem witness_PollAndProbeRepliesAreAccepted_rollCall :
    ∀ scan ∈ [none, some ⟨3, 4, 4, [], false⟩, some ⟨3, 4, 4, [], true⟩, some ⟨3, 4, 5, [], true⟩],
      ∀ control ∈ [0x0E#8, 0x3E, 0xCE, 0xFE],
      let x := exchange .rollCall .receive
      let frame := lineFrame x.target control []
      let s := (busy x).onLine .a fun ln => { ln with scan, assembler := some ⟨frame.dropLast, false, none⟩ }
      ((s.line .a).mode = .active ∧ (s.line .a).driver = false ∧ (s.line .a).awaitsMark = false
          ∧ (s.line .a).exchange = some x ∧ x.phase = .receive ∧ x.kind = .rollCall)
        ∧ (s.line .a).assembler = some ⟨frame.dropLast, false, none⟩ ∧ x.target < 256
        ∧ frame.dropLast ++ [frame.getLastD 0] = frame ∧ (s.line .a).scan = scan
        ∧ control.toNat % 16 = 0xE
        ∧ scan.all (fun sc => (sc.last < sc.next) == (sc.next == 5)) := by decide +kernel

/-- DATA of 1 and of 32 characters, EMPTY and BUSY, with and without resync mark and bits 7 and 6. -/
theorem witness_PollAndProbeRepliesAreAccepted :
    ∀ kind ∈ [ExchangeKind.poll, .probe],
      ∀ reply ∈ [(0x18#8, [1#8]), (0xF8, List.replicate 32 0#8), (0x39, []), (0xDC, [])],
      let x := exchange kind .receive
      let s := replied x reply.1 reply.2
      let frame := lineFrame x.target reply.1 reply.2
      ((s.line .a).mode = .active ∧ (s.line .a).driver = false ∧ (s.line .a).awaitsMark = false
          ∧ (s.line .a).exchange = some x ∧ x.phase = .receive)
        ∧ x.station = some 47 ∧ s.station 47 = some unit ∧ x.holdsReservation = true
        ∧ reply.1.toNat % 16 ∈ [0x8, 0x9, 0xC] ∧ reply.1.getLsbD 4 = x.toggleSent
        ∧ (s.line .a).assembler = some ⟨frame.dropLast, false, none⟩ ∧ x.target < 256 ∧ reply.2.length ≤ 32
        ∧ frame.dropLast ++ [frame.getLastD 0] = frame := by decide +kernel

/-- DONE and REJECT of 0 and 32 characters, and BUSY with the streak one below the limit and at it. -/
theorem witness_CommandRepliesAreAccepted :
    (∀ reply ∈ [(0x1A#8, []), (0xFB, List.replicate 32 0#8), (0x3C, [])],
      let x := exchange .command .receive
      let q := record (some 47) .inFlight
      let s := replied x reply.1 reply.2 (pooled q)
      let frame := lineFrame x.target reply.1 reply.2
      ((s.line .a).mode = .active ∧ (s.line .a).driver = false ∧ (s.line .a).awaitsMark = false
          ∧ (s.line .a).exchange = some x ∧ x.phase = .receive)
        ∧ (reply.1.toNat % 16 ∈ [0xA, 0xB, 0xC] ∧ reply.1.getLsbD 4 = x.toggleSent)
        ∧ (x.station = some 47 ∧ s.station 47 = some unit ∧ x.record = some q.tag ∧ TagsDistinct s
          ∧ q ∈ s.pool.records ∧ q.station = some 47
          ∧ (∀ c ∈ s.pool.records.takeWhile (·.tag != q.tag), c.station ≠ some 47))
        ∧ (s.line .a).assembler = some ⟨frame.dropLast, false, none⟩
        ∧ frame.dropLast ++ [frame.getLastD 0] = frame)
    ∧ ((replied (exchange .command .receive) 0x1C []).line .a).config.busyLimit ≤ min (7 + 1) 15
    ∧ min (6 + 1) 15 < ((replied (exchange .command .receive) 0x1C []).line .a).config.busyLimit
    ∧ (record (some 47) .inFlight).cancelPending = false := by decide +kernel

/-- LENGTH 0 and 32. -/
theorem witness_CodesFollowTheTables :
    ([0#8] : List Byte).length = 1 + (([0#8] : List Byte).getD 0 0).toNat
    ∧ (32#8 :: List.replicate 32 0#8).length = 1 + ((32#8 :: List.replicate 32 0#8).getD 0 0).toNat
    ∧ (0xC7#8).toNat % 16 = 0x7
    ∧ ((3#8).toNat = 3 ∧ ([0#8] : List Byte).length = 1 + (([0#8] : List Byte).getD 0 0).toNat)
    ∧ (0#8).toNat < 256 ∧ [0x0, 0x6, 0x7, 0xF, 0x1, 0x2, 0x3, 0x4, 0x5].contains (0xC7#8 |>.toNat |> (· % 16)) := by
  decide +kernel

/-! ### The end of an exchange -/

/-- An exchange in its gap with an outcome. -/
def ending (kind : ExchangeKind) (outcome : Option ExchangeOutcome) : Exchange :=
  { exchange kind .gap with
    outcome, holdsReservation := (kind == .poll || kind == .probe) && outcome.isNone
    record := if outcome.isSome then none else (exchange kind .gap).record }

/-- The next attempt of a POLL and of a COMMAND; the cancel; the end of a broadcast. -/
theorem witness_GapsEndOrRepeatExchanges :
    (∀ x ∈ [ending .poll none, ending .command none, ending .broadcast (some .sent),
        ending .poll (some (.accepted .empty))],
      ((busy x).line .a).exchange = some x ∧ x.phase = .gap)
    ∧ ((ending .poll none).outcome = none ∧ (ending .poll none).record = none)
    ∧ ((ending .broadcast (some .sent)).outcome.isSome ∧ (ending .broadcast (some .sent)).station = none)
    ∧ (∀ cancelPending ∈ [true, false], ∃ q ∈ [{ record (some 47) .inFlight with cancelPending }],
      let s := busy (ending .command none) (pooled q)
      q ∈ s.pool.records ∧ TagsDistinct s ∧ (ending .command none).record = some q.tag
        ∧ (ending .command none).station = some 47 ∧ s.station 47 = some unit ∧ unit.pendingDisable = false
        ∧ q.station = some 47 ∧ (∀ c ∈ s.pool.records.takeWhile (·.tag != q.tag), c.station ≠ some 47)) := by
  decide +kernel

/-- A station of every state, and one with a disable pending, after an accepted reply. -/
theorem witness_GapsEndOrRepeatExchanges_accepted :
    ∀ e ∈ [unit, { unit with state := .disabled }, { unit with state := .suspect }, { unit with state := .probing },
        { unit with state := .offline }, { unit with pendingDisable := true }],
      let s := busy (ending .poll (some (.accepted .empty))) (withUnit e (pooled (record (some 47) .queued)))
      (s.line .a).exchange = some (ending .poll (some (.accepted .empty)))
        ∧ (ending .poll (some (.accepted .empty))).outcome = some (.accepted .empty)
        ∧ (ending .poll (some (.accepted .empty))).station = some 47 ∧ s.station 47 = some e ∧ TagsDistinct s := by
  decide +kernel

/-- A disable pending in SUSPECT, PROBING and OFFLINE, after an answer and a failure, and after a cancel. -/
theorem witness_GapsEndOrRepeatExchanges_disable :
    (∀ state ∈ [StationState.online, .suspect, .probing, .offline],
      ∀ outcome ∈ [ExchangeOutcome.accepted .empty, .failed],
      let e : Station := { unit with state, failures := 2, pendingDisable := true }
      let x := ending .poll (some outcome)
      let s := busy x (withUnit e (pooled (record (some 47) .queued)))
      (s.line .a).exchange = some x ∧ x.phase = .gap ∧ x.outcome.isSome ∧ x.station = some 47
        ∧ s.station 47 = some e ∧ e.pendingDisable = true ∧ TagsDistinct s)
    ∧ (let q : CommandRecord := { record (some 47) .inFlight with cancelPending := true }
      let s := busy (ending .command none) (withUnit { unit with pendingDisable := true } (pooled q))
      q ∈ s.pool.records ∧ (ending .command none).record = some q.tag ∧ q.cancelPending = true ∧ TagsDistinct s) := by
  decide +kernel

/-- Failures one below the threshold and at it, with the other line ACTIVE and OFF. -/
theorem witness_FailedExchangesLoseOrMoveStations :
    (∀ e ∈ [{ unit with failures := 1 }, { unit with failures := 2, state := .suspect },
        { unit with failures := 2, state := .probing }, { unit with failures := 15, state := .offline },
        { unit with offlineThreshold := 1 }],
      let s := busy (ending .poll (some .failed)) (withUnit e (pooled (record (some 47) .queued)))
      ((s.line .a).exchange = some (ending .poll (some .failed)) ∧ (ending .poll (some .failed)).phase = .gap
          ∧ (ending .poll (some .failed)).outcome = some .failed ∧ (ending .poll (some .failed)).station = some 47)
        ∧ s.station 47 = some e ∧ e.pendingDisable = false ∧ TagsDistinct s)
    ∧ (min (1 + 1) 15 < unit.offlineThreshold ∧ unit.offlineThreshold ≤ min (2 + 1) 15 ∧ 1 ≤ min (0 + 1) 15)
    ∧ (unit.alternate.isSome
        ∧ (((lineIn .active).onLine .b fun ln => { ln with mode := .active }).line unit.current.other).mode = .active
        ∧ ((lineIn .active).line unit.current.other).mode ≠ .active) := by decide +kernel

/-- One of each kind, cut off while its frame goes out or while it is awaited. -/
theorem witness_CutOffExchangesGiveTheirWorkBack :
    (∀ kind ∈ [ExchangeKind.poll, .probe, .command, .broadcast, .rollCall],
      ∃ q ∈ [record (if kind = .broadcast then none else some 47) .inFlight],
      let x := exchange kind .transmit
      let s := busy x (pooled q)
      ((s.line .a).exchange = some x ∧ x.outcome = none ∧ TagsDistinct s ∧ q ∈ s.pool.records)
        ∧ s.station 47 = some unit ∧ unit.pendingDisable = false ∧ q.tag = 0x200#16
        ∧ (∀ c ∈ s.pool.records.takeWhile (·.tag != q.tag), c.station ≠ some 47))
    ∧ ((exchange .poll .transmit).station = some 47 ∧ (exchange .poll .transmit).holdsReservation = true)
    ∧ (exchange .probe .transmit).holdsReservation = true ∧ (exchange .command .transmit).record = some 0x200#16
    ∧ ((exchange .broadcast .transmit).station = none ∧ (exchange .broadcast .transmit).record = some 0x200#16)
    ∧ ((exchange .rollCall .transmit).station = none
        ∧ ((busy (exchange .rollCall .transmit)).line .a).scan = none)
    ∧ (let sc : Scan := ⟨3, 4, 4, [], false⟩
      ((busy (exchange .rollCall .transmit)).onLine .a fun ln => { ln with scan := some sc }).lineA.scan = some sc) := by
  decide +kernel

/-- No exchange, one with a decided outcome, a disable pending, a broadcast's cancel, and a scan at its last address. -/
theorem witness_CutOffExchangesGiveTheirWorkBack_rest :
    ((lineIn .active).line .a).exchange = none
    ∧ (((busy (ending .poll (some .failed))).line .a).exchange = some (ending .poll (some .failed))
        ∧ (ending .poll (some .failed)).outcome.isSome)
    ∧ (let s := busy (exchange .poll .await) (withUnit { unit with pendingDisable := true })
      (s.line .a).exchange = some (exchange .poll .await) ∧ (exchange .poll .await).station = some 47
        ∧ s.station 47 = some { unit with pendingDisable := true } ∧ TagsDistinct s)
    ∧ (let q : CommandRecord := { record none .inFlight with cancelPending := true }
      q ∈ (busy (exchange .broadcast .transmit) (pooled q)).pool.records ∧ q.station = none
        ∧ (exchange .broadcast .transmit).record = some q.tag)
    ∧ ∀ next ∈ [4, 5], ∃ sc ∈ [(⟨3, 4, next, [], true⟩ : Scan)],
        ((lineIn .active fun ln => { ln with exchange := some (exchange .rollCall .await), scan := some sc }).line .a).scan
            = some sc
          ∧ sc.rollCall = true ∧ (sc.last < sc.next ↔ next = 5) := by decide +kernel

/-! ### The receiver -/

/-- An assembler that holds some characters. -/
def assembling (chars : List Byte) (s : State) : State :=
  s.onLine .a fun ln => { ln with assembler := some ⟨chars, false, some 3⟩ }

/-- A test whose frame is being sent, its character k in the shift path. -/
def sendingTest (charsSent : Nat) (delivered : Bool := false) (index : Nat := 0) : LineTest :=
  { awaitedTest with phase := .sending, charsSent, delivered, index, count := index + 3 }

/-- The first character; the second; LENGTH 32; the last payload character but the CRC; and on the internal loop. -/
theorem witness_CharactersAreAssembled :
    (((lineIn .monitor).line .a).mode = .monitor ∧ ((lineIn .monitor).line .a).awaitsMark = false
        ∧ ((lineIn .monitor).line .a).assembler = none ∧ ((lineIn .monitor).line .a).exchange = none)
    ∧ (∀ k ∈ [0, 1, 36],
      let s := testing (sendingTest k)
      (s.line .a).mode = .test ∧ (s.line .a).ending = none ∧ (s.line .a).exchange = none
        ∧ (s.line .a).test = some (sendingTest k) ∧ (s.line .a).assembler = none
        ∧ (lineFrame 0 0x04 ((List.range 32).map fun p => b8 p))[k]? = some ((testFrame 0).getD k 0))
    ∧ (let s := busy (exchange .poll .await)
      (s.line .a).mode = .active ∧ (s.line .a).driver = false ∧ (s.line .a).awaitsMark = false
        ∧ (s.line .a).assembler = none
        ∧ (s.line .a).exchange = some (exchange .poll .await) ∧ (exchange .poll .await).phase = .await)
    ∧ (∀ chars ∈ [[3], [3, 8], 3 :: 8 :: 32 :: List.replicate 32 0#8],
      let s := assembling chars (busy (exchange .poll .receive))
      (s.line .a).assembler = some ⟨chars, false, some 3⟩ ∧ (s.line .a).mode = .active ∧ (s.line .a).driver = false
        ∧ (s.line .a).exchange = some (exchange .poll .receive) ∧ (exchange .poll .receive).phase = .receive)
    ∧ ((3 :: 8 :: 32 :: List.replicate 32 0#8).length + 1 < 5 + 32 ∧ (32#8).toNat ≤ 32)
    ∧ (((lineIn .active).line .a).mode = .active ∧ ((lineIn .active).line .a).exchange = none
        ∧ ((lineIn .active).line .a).driver = false)
    ∧ (exchange .poll .gap).phase = .gap
    ∧ (let s := lineIn .monitor fun ln => { ln with awaitsMark := true }
      (s.line .a).awaitsMark = true ∧ (s.line .a).mode ≠ .test) := by decide +kernel

theorem witness_EdgesAndLevelsAreTaken :
    (∀ t ∈ [sendingTest 0, sendingTest 36 true, awaitedTest],
      let s := testing t
      (s.line .a).mode = .test ∧ (s.line .a).ending = none ∧ (s.line .a).exchange = none ∧ (s.line .a).test = some t)
    ∧ (((lineIn .monitor).line .a).mode = .monitor ∧ ((lineIn .monitor).line .a).awaitsMark = false)
    ∧ (((lineIn .active).line .a).mode = .active ∧ ((lineIn .active).line .a).driver = false
        ∧ ((lineIn .active).line .a).awaitsMark = false)
    ∧ (let s := lineIn .active fun ln => { ln with stuck := true }
      (s.line .a).stuck = true ∧ (s.line .a).mode = .active ∧ (s.line .a).driver = false
        ∧ (s.line .a).rxMark = true) := by decide +kernel

/-- R167: HOLD is high with four requests in the intake, and low with three. -/
theorem test_hold :
    (arriving false false true false).holdPin = true ∧ State.reset.holdPin = false
      ∧ (State.reset.onLink fun k => { k with intake := List.replicate 3 (rq []) }).holdPin = false := by decide +kernel

theorem witness_StuckEndsTheLinesWork :
    ∀ mode ∈ [LineMode.active, .monitor], ∀ chars ∈ [[3], [3, 8], [3, 8, 33]],
      let s := assembling chars (lineIn mode fun ln => { ln with rxMark := false })
      (s.line .a).stuck = false ∧ (s.line .a).rxMark = false ∧ (s.line .a).driver = false ∧ (s.line .a).mode = mode
        ∧ (s.line .a).assembler = some ⟨chars, false, some 3⟩
        ∧ ((lineIn mode).line .a).assembler = none := by decide +kernel

/-- A frame broken off by the timer, LENGTH 33 and a new address; one of no payload complete, with a framing error. -/
theorem witness_StuckEndsTheLinesWork_captures :
    (∀ chars ∈ [[3#8], [3, 8], [3, 8, 0, 9]],
      let s := assembling chars (lineIn .monitor)
      (s.line .a).mode = .monitor ∧ (s.line .a).assembler = some ⟨chars, false, some 3⟩
        ∧ (s.line .a).awaitsMark = false ∧ (s.line .a).exchange = none)
    ∧ (⟨[3], false, some 3⟩ : PartialFrame).timer.isSome ∧ ([3#8, 8].length = 2 ∧ 32 < (33#8).toNat)
    ∧ [3#8, 8, 0, 9].length = 4 + ([3#8, 8, 0, 9].getD 2 0).toNat
    ∧ (after (.frameReceived .a 9 true) (assembling [3, 8, 0, 9] (lineIn .monitor))).queue.entries.map (·.report)
        = [.capture .a 3 (some 8) (some false) (some 0) [] true true false] := by decide +kernel

/-- A reply broken off by LENGTH 33, the timer and a new address, to each kind of exchange, at its last attempt and
before. -/
theorem witness_SpoiltRepliesFailTheAttempt :
    (∀ kind ∈ [ExchangeKind.poll, .probe, .command], ∀ attempt ∈ [2, 3], ∀ chars ∈ [[3#8], [3, 8]],
      let x : Exchange := { exchange kind .receive with attempt }
      let q := record (some 47) .inFlight
      let s := assembling chars (busy x (pooled q))
      ((s.line .a).mode = .active ∧ (s.line .a).driver = false ∧ (s.line .a).exchange = some x ∧ x.phase = .receive
          ∧ (s.line .a).assembler = some ⟨chars, false, some 3⟩ ∧ (s.line .a).awaitsMark = false ∧ TagsDistinct s)
        ∧ (x.station = some 47 ∧ s.station 47 = some unit
          ∧ ((kind = .poll ∨ kind = .probe) ∧ x.record = none ∧ x.holdsReservation = true
            ∨ kind = .command ∧ x.record = some q.tag ∧ q ∈ s.pool.records ∧ q.station = some 47
              ∧ (∀ c ∈ s.pool.records.takeWhile (·.tag != q.tag), c.station ≠ some 47))))
    ∧ ([3#8, 8].length = 2 ∧ 32 < (33#8).toNat) ∧ (⟨[3], false, some 3⟩ : PartialFrame).timer.isSome
    ∧ ((busy (exchange .rollCall .receive)).line .a).scan = none := by decide +kernel

/-- A complete reply to a COMMAND fails with every kind that its judgement gives, and with NAK. -/
theorem witness_SpoiltRepliesFailTheAttempt_frames :
    let frame (address : Nat) (code : Nat) (toggle : Bool) := lineFrame address (controlByte code toggle false) []
    (∀ reply ∈ [(frame 3 0xA true, true, FailureKind.framing), ((frame 3 0xA true).dropLast ++ [0], false, .check),
        (frame 4 0xA true, false, .wrongResponder), (frame 3 0x9 true, false, .badKind), (frame 3 0xA false, false, .toggle)],
      judge .command 3 true ⟨reply.1, reply.2.1, none⟩ = .fails reply.2.2
        ∧ reply.1.dropLast.length = 4 + (reply.1.dropLast.getD 2 0).toNat)
    ∧ judge .command 3 true ⟨frame 3 0xD false, false, none⟩ = .passes .checkFail := by decide +kernel

/-! ### Line tests -/

/-- Frame 0 of a test. -/
def frameOfTest : List Byte :=
  lineFrame 0 (if awaitedTest.index % 2 = 1 then 0x14#8 else 0x04#8)
    ((List.range 32).map fun p => b8 (7 * awaitedTest.index + p))

/-- The first character, the last but one and the last, taken and not, with the frame handed up and without; AWAITING;
GAP; the last frame. -/
theorem witness_LineTestsRun :
    (∀ t ∈ [sendingTest 0, sendingTest 35 true, sendingTest 36, sendingTest 36 true,
        { sendingTest 36 true with handed := some true }, awaitedTest, { awaitedTest with phase := .gap },
        { awaitedTest with index := 2 }],
      let s := testing t
      (s.line .a).ending = none ∧ (s.line .a).exchange = none ∧ (s.line .a).test = some t ∧ (s.line .a).mode = .test
        ∧ (s.line .a).assembler = none)
    ∧ (sendingTest 0).handed = none ∧ (awaitedTest.index + 1 < awaitedTest.count ∧ ¬2 + 1 < awaitedTest.count)
    ∧ (∀ k ∈ [0, 36], frameOfTest[k]? = some (frameOfTest.getD k 0)) ∧ frameOfTest.length = 37 := by decide +kernel

/-- In each phase a frame broken off by the timer, and on the loop by LENGTH 35, which stands where the assembler is out
of step, and by a new address, and one complete. -/
theorem witness_LineTestsRun_received :
    (∀ t ∈ [sendingTest 0, sendingTest 3 false 5, sendingTest 36, awaitedTest, { awaitedTest with phase := .gap }],
      ∀ chars ∈ [[3#8], [3, 8], frameOfTest.dropLast],
      let s := assembling chars (testing t)
      (s.line .a).test = some t ∧ (s.line .a).exchange = none ∧ (s.line .a).ending = none ∧ (s.line .a).mode = .test
        ∧ (s.line .a).assembler = some ⟨chars, false, some 3⟩)
    ∧ (lineFrame 0 0x14 ((List.range 32).map fun p => b8 (7 * 5 + p)))[3]? = some 35#8
    ∧ frameOfTest.dropLast.length = 4 + (frameOfTest.dropLast.getD 2 0).toNat := by decide +kernel

/-- R140: the loop delivers the last character of a frame as it is sent, and the frame, assembled while it was sent, is
matched; where its inter-character timer has broken the frame off, it is not. -/
theorem test_loop_delivers :
    let t := after (.frameSent .a) (assembling frameOfTest.dropLast (testing (sendingTest 36)))
    let u := after (.frameSent .a)
      (after (.intercharacterTimeout .a) (assembling frameOfTest.dropLast (testing (sendingTest 36))))
    ((t.line .a).counters.goodFrames = 1 ∧ (t.line .a).assembler = none
      ∧ (t.line .a).test.map (fun t => (t.phase, t.framesMatched, t.firstMismatch)) = some (.gap, 1, none))
    ∧ (u.line .a).counters.goodFrames = 0 ∧ (u.line .a).counters.strayCharacters = 1
      ∧ (u.line .a).test.map (fun t => (t.phase, t.framesMatched, t.firstMismatch)) = some (.gap, 0, some 0) := by
  decide +kernel

/-- R140: the receiver takes a character once, whether its row comes before it has left or not; a byte that is not on
the loop is not taken. -/
theorem test_loop_delivers_once :
    let s := testing (sendingTest 0)
    let t := after (.addressCharacterReceived .a 0 false) s
    after (.characterSent .a) t = after (.characterSent .a) s
      ∧ (t.line .a).assembler = some ⟨[0], false, some 3⟩
      ∧ after (.addressCharacterReceived .a 0 false) t = t
      ∧ after (.addressCharacterReceived .a 1 false) s = s := by decide +kernel

/-! ### Station timers and notices -/

/-- A station whose timers stand at 0. -/
def expired : Station := { unit with pollTimer := some 0, holdoffTimer := some 0, probeTimer := some 0 }

/-- Each timer at 0; the last free slot and none; a notice of each line and of station 47. -/
theorem witness_StationTimersExpireAndNoticesDrain :
    ((withUnit expired).station 47 = some expired ∧ expired.pollTimer.isSome ∧ expired.holdoffTimer.isSome
        ∧ expired.probeTimer.isSome)
    ∧ 128 ≤ (full State.reset).queue.entries.length + (full State.reset).queue.reservations
    ∧ (let s : State := { lineIn .active (fun ln => { ln with notice := true }) with queue := ⟨[], 127, 0⟩ }
      s.queue.entries.length + s.queue.reservations < 128 ∧ (s.line .a).notice = true)
    ∧ (let s := State.reset.onLine .b fun ln => { ln with notice := true }
      (s.line .b).notice = true ∧ s.lineA.notice = false)
    ∧ (let s := withUnit { unit with notice := true }
      s.lineA.notice = false ∧ s.lineB.notice = false ∧ s.station 47 = some { unit with notice := true }) := by
  decide +kernel

/-- Before station 47 no station waits. -/
theorem witness_StationTimersExpireAndNoticesDrain_lower :
    ∀ m < 47, ∀ f, (withUnit { unit with notice := true }).station m = some f → f.notice = false := by
  intro m hm f h
  have h47 : m ≠ 47 := by omega
  simp [withUnit, State.station, State.setStation, State.reset, h47.symm] at h

/-! ### What every step keeps: states that have the property, and a step from them -/

/-- A station in PROBING in its list, its record waiting, its POLL awaited: everything holds what it should. -/
def kept : State :=
  { (busy (exchange .probe .await)
      (withUnit { unit with state := .probing, probeTimer := some 0 })).onLine .a fun ln =>
        { ln with probeList := [47] } with
    pool := ⟨[record (some 47) .queued], 1⟩
    queue := ⟨[entry 0xFFFF true, entry 0 false], 2, 1⟩
    link := { State.reset.link with
      session := { State.reset.link.session with state := .opened, window := 1, ackTimer := some 0 } }
    pending := [.replyStartTimeout .a] }

/-- A step can be taken from it. -/
theorem witness_EveryStep : ∃ t, step kept = .next t := ⟨_, rfl⟩

theorem witness_EveryStepKeepsTheNumbering : kept.queue.Numbered := by
  unfold ReportQueue.Numbered
  decide +kernel

theorem witness_EveryStepKeepsTheReservations : kept.Reserved := by
  refine ⟨by decide +kernel, by decide +kernel, by decide +kernel, by decide +kernel, fun n => ?_, fun l x h => ?_⟩
  · exact (List.length_filter_le _ _).trans (by decide)
  cases l
  · obtain rfl : exchange .probe .await = x := Option.some.inj h
    exact ⟨by decide, by decide, by decide⟩
  · exact absurd (show none = some x from h) (by simp)

theorem witness_EveryStepKeepsTheSession : kept.SessionSound := by
  refine ⟨by decide +kernel, by decide +kernel, by decide +kernel, by decide +kernel, by decide +kernel, ?_⟩
  intro p h
  exact absurd (show none = some p from h) (by simp)

theorem witness_EveryStepKeepsTheLinesSound : kept.lineA.Sound ∧ kept.lineB.Sound := by
  refine ⟨⟨by decide +kernel, by decide +kernel, by decide +kernel, by decide +kernel, by decide +kernel,
    fun h => absurd (show false = true from h) (by simp), ?_, by decide +kernel,
    fun c h => absurd (show none = some (c, true) from h) (by simp), by decide +kernel⟩,
    ⟨by decide +kernel, by decide +kernel, by decide +kernel, by decide +kernel, by decide +kernel,
    fun h => absurd (show false = true from h) (by simp), ?_, by decide +kernel,
    fun c h => absurd (show none = some (c, true) from h) (by simp), by decide +kernel⟩⟩
  · intro x h hd
    obtain rfl : exchange .probe .await = x := Option.some.inj h
    exact absurd hd (by decide)
  · intro x h
    exact absurd (show none = some x from h) (by simp)

theorem witness_EveryStepKeepsTheProbeLists : kept.ProbeListsHold := by
  have at47 : kept.station 47 = some { unit with state := .probing, probeTimer := some 0 } := rfl
  have other (n : Nat) (h : n ≠ 47) : kept.station n = none := by
    simp [kept, busy, lineIn, withUnit, State.onLine, State.station, State.setStation, State.reset, h.symm]
  intro l
  cases l
  · refine ⟨by decide +kernel, fun n => ?_⟩
    by_cases h : n = 47
    · subst h
      exact ⟨fun _ => ⟨_, at47, .inl rfl, rfl⟩, fun _ => List.mem_singleton.2 rfl⟩
    · exact ⟨fun hm => absurd (List.mem_singleton.1 hm) h, fun ⟨e, he, _⟩ => by rw [other n h] at he; cases he⟩
  · refine ⟨by decide +kernel, fun n => ⟨fun hm => absurd hm (List.not_mem_nil), fun ⟨e, he, _, hl⟩ => ?_⟩⟩
    by_cases h : n = 47
    · subst h
      rw [at47] at he
      cases he
      cases hl
    · rw [other n h] at he
      cases he

/-- Station 47 claims address 3 on both lines, and no other is defined. -/
theorem witness_EveryStepKeepsTheProbeLists_addresses : kept.AddressesDistinct := by
  intro l n m e f hn hm
  have other (n : Nat) (h : n ≠ 47) : kept.station n = none := by
    simp [kept, busy, lineIn, withUnit, State.onLine, State.station, State.setStation, State.reset, h.symm]
  have at47 (n : Nat) (e : Station) (h : kept.station n = some e) : n = 47 := by
    by_contra hn
    rw [other n hn] at h
    cases h
  exact fun _ _ _ => (at47 n e hn).trans (at47 m f hm).symm

theorem witness_EveryStepKeepsCountersInRange : kept.CountersInRange := by
  refine ⟨⟨?_, ?_, ?_, ?_, ?_, ?_, ?_, ?_, ?_, ?_⟩, ⟨?_, ?_, ?_, ?_, ?_, ?_, ?_, ?_, ?_, ?_⟩,
    ⟨?_, ?_, ?_, ?_, ?_, ?_, ?_, ?_, ?_⟩, fun n e he => ?_⟩
  iterate 29 decide +kernel
  by_cases h : n = 47
  · subst h
    cases (show kept.station 47 = some { unit with state := .probing, probeTimer := some 0 } from rfl).symm.trans he
    exact ⟨by decide, by decide, by decide, by decide, by decide, by decide, by decide, by decide, by decide⟩
  · simp [kept, busy, lineIn, withUnit, State.onLine, State.station, State.setStation, State.reset, Ne.symm h] at he

end Sys2Proof.Tests
end

/- The whole text is compiled in one process whose memory is bounded, where each waiting thread takes its share. So the
declarations of this section are elaborated one after another. -/
section
set_option Elab.async false

section
/-! SUPPORT. What a step can do to the invariants of the station table (R4, R5, R81) and to the counters (R9, R39,
R166). Most operations leave two states alike: the same probe lists, every station listed and claiming as before, the
counters in their ranges. The few that move a station between the probe lists are said to keep the invariants. -/

namespace Sys2Proof.Machine

/-! ### Entries -/

/-- R5, R81: the line whose probe list holds the station: its current line in PROBING and OFFLINE. -/
def Station.listedOn (e : Station) : Option LineId :=
  if e.state = .probing ∨ e.state = .offline then some e.current else none

theorem Station.listedOn_eq_some {e : Station} {l : LineId} :
    e.listedOn = some l ↔ (e.state = .probing ∨ e.state = .offline) ∧ e.current = l := by
  simp [Station.listedOn]

/-- The entry has changed without its claims (R4), and its counters have stayed in their ranges. -/
structure Station.Revised (e f : Station) : Prop where
  address : f.address = e.address
  home : f.home = e.home
  alternate : f.alternate = e.alternate
  inRange : e.InRange → f.InRange

/-- The entry has been revised, and the station belongs in the same probe list. -/
structure Station.Alike (e f : Station) : Prop extends e.Revised f where
  listedOn : f.listedOn = e.listedOn

theorem Station.Revised.trans {e f g : Station} (h : e.Revised f) (k : f.Revised g) : e.Revised g :=
  ⟨k.address.trans h.address, k.home.trans h.home, k.alternate.trans h.alternate, k.inRange ∘ h.inRange⟩

theorem Station.Alike.refl (e : Station) : e.Alike e := ⟨⟨rfl, rfl, rfl, id⟩, rfl⟩

theorem Station.Alike.trans {e f g : Station} (h : e.Alike f) (k : f.Alike g) : e.Alike g :=
  ⟨h.toRevised.trans k.toRevised, k.listedOn.trans h.listedOn⟩

theorem bump_le (n : Nat) : bump n ≤ counterTop := Nat.min_le_right ..
theorem bump15_le (n : Nat) : bump15 n ≤ 15 := Nat.min_le_right ..
theorem bump255_le (n : Nat) : bump255 n ≤ 255 := Nat.min_le_right ..

/-- R9: counters that are 0 are in range. -/
theorem Station.inRange_of_zero {e : Station} (h : e.counters = .zero) (hf : e.failures ≤ 15) (hb : e.busyStreak ≤ 15)
    (hc : e.changeCount ≤ 255) : e.InRange := by
  unfold Station.InRange
  rw [h]
  exact ⟨by decide, by decide, by decide, by decide, by decide, by decide, hf, hb, hc⟩

section
variable (e : Station)

theorem Station.raiseNotice_alike (c : StationCause) : e.Alike (e.raiseNotice c) :=
  ⟨⟨rfl, rfl, rfl, fun ⟨h1, h2, h3, h4, h5, h6, h7, h8, _⟩ => ⟨h1, h2, h3, h4, h5, h6, h7, h8, bump255_le _⟩⟩, rfl⟩

theorem Station.startPollTimer_alike : e.Alike e.startPollTimer := ⟨⟨rfl, rfl, rfl, id⟩, rfl⟩

theorem Station.clearBusyStreak_alike : e.Alike { e with busyStreak := 0 } :=
  ⟨⟨rfl, rfl, rfl, fun ⟨h1, h2, h3, h4, h5, h6, h7, _, h9⟩ => ⟨h1, h2, h3, h4, h5, h6, h7, Nat.zero_le _, h9⟩⟩, rfl⟩

theorem Station.recordFailure_alike (k : FailureKind) : e.Alike (e.recordFailure k) :=
  ⟨⟨rfl, rfl, rfl, fun ⟨h1, _, h3, h4, h5, h6, h⟩ => ⟨h1, bump_le _, h3, h4, h5, h6, h⟩⟩, rfl⟩

theorem Station.countCompleted_alike : e.Alike e.countCompleted :=
  ⟨⟨rfl, rfl, rfl, fun ⟨_, h⟩ => ⟨bump_le _, h⟩⟩, rfl⟩

theorem Station.countData_alike : e.Alike e.countData :=
  ⟨⟨rfl, rfl, rfl, fun ⟨h1, h2, h3, _, h⟩ => ⟨h1, h2, h3, bump_le _, h⟩⟩, rfl⟩

theorem Station.holdOff_alike (ms : Nat) : e.Alike (e.holdOff ms) :=
  ⟨⟨rfl, rfl, rfl, fun ⟨h1, h2, _, h⟩ => ⟨h1, h2, bump_le _, h⟩⟩, rfl⟩

theorem Station.flip_alike : e.Alike e.flip := ⟨⟨rfl, rfl, rfl, id⟩, rfl⟩

theorem Station.setBusyStreak_alike {n : Nat} (h : n ≤ 15) : e.Alike { e with busyStreak := n } :=
  ⟨⟨rfl, rfl, rfl, fun ⟨h1, h2, h3, h4, h5, h6, h7, _, h9⟩ => ⟨h1, h2, h3, h4, h5, h6, h7, h, h9⟩⟩, rfl⟩

theorem Station.setFailures_alike {n : Nat} (h : n ≤ 15) : e.Alike { e with failures := n } :=
  ⟨⟨rfl, rfl, rfl, fun ⟨h1, h2, h3, h4, h5, h6, _, h8⟩ => ⟨h1, h2, h3, h4, h5, h6, h, h8⟩⟩, rfl⟩

theorem Station.tick_alike : e.Alike e.tick := ⟨⟨rfl, rfl, rfl, id⟩, rfl⟩

theorem Station.expirePoll_alike : e.Alike e.expirePoll := by
  unfold Station.expirePoll
  split
  · exact .refl e
  · exact ⟨⟨rfl, rfl, rfl, id⟩, rfl⟩

theorem Station.withPeriod_alike (period : Nat) (inFlight : Bool) : e.Alike (e.withPeriod period inFlight) := by
  unfold Station.withPeriod
  split
  · exact ⟨⟨rfl, rfl, rfl, id⟩, rfl⟩
  · split <;> split <;> exact ⟨⟨rfl, rfl, rfl, id⟩, rfl⟩

theorem Station.toProbing_revised : e.Revised e.toProbing :=
  ⟨rfl, rfl, rfl, fun ⟨h1, h2, h3, h4, h5, h6, _, _, h9⟩ => ⟨h1, h2, h3, h4, h5, h6, Nat.zero_le _, Nat.zero_le _, h9⟩⟩

theorem Station.toDisabled_revised : e.Revised e.toDisabled :=
  ⟨rfl, rfl, rfl, fun ⟨h1, h2, h3, h4, h5, h6, _, _, h9⟩ => ⟨h1, h2, h3, h4, h5, h6, Nat.zero_le _, Nat.zero_le _, h9⟩⟩

theorem Station.switchLine_revised : e.Revised e.switchLine :=
  ⟨rfl, rfl, rfl, fun ⟨h1, h2, h3, h4, _, h⟩ => ⟨h1, h2, h3, h4, bump_le _, h⟩⟩

theorem Station.restarted_revised : e.Revised e.restarted :=
  ⟨rfl, rfl, rfl, fun _ => Station.inRange_of_zero rfl (Nat.zero_le _) (Nat.zero_le _) (Nat.zero_le _)⟩

end

/-! ### States that are alike -/

/-- Two states are alike but for station n: every other entry is alike, the probe lists hold the same others in the same
order, and the counters of lines and link have stayed in their ranges. -/
structure State.AlikeBut (n : Nat) (s t : State) : Prop where
  stations : ∀ m ≠ n, Option.Rel Station.Alike (s.station m) (t.station m)
  lists : ∀ l, (t.line l).probeList.filter (· != n) = (s.line l).probeList.filter (· != n)
  lines : ∀ l, (s.line l).counters.InRange → (t.line l).counters.InRange
  link : s.link.counters.InRange → t.link.counters.InRange

/-- Two states are alike: every entry is alike, the probe lists are the same, and the counters of lines and link have
stayed in their ranges. -/
structure State.Alike (s t : State) : Prop where
  stations : ∀ m, Option.Rel Station.Alike (s.station m) (t.station m)
  lists : ∀ l, (t.line l).probeList = (s.line l).probeList
  lines : ∀ l, (s.line l).counters.InRange → (t.line l).counters.InRange
  link : s.link.counters.InRange → t.link.counters.InRange

theorem optionRel_alike_refl (e : Option Station) : Option.Rel Station.Alike e e := by
  cases e with
  | none => exact .none
  | some e => exact .some (.refl e)

theorem optionRel_alike_trans {e f g : Option Station} (h : Option.Rel Station.Alike e f)
    (k : Option.Rel Station.Alike f g) : Option.Rel Station.Alike e g := by
  cases h with
  | none => exact k
  | some h => cases k with
    | some k => exact .some (h.trans k)

theorem State.Alike.refl {s : State} : s.Alike s := ⟨fun _ => optionRel_alike_refl _, fun _ => rfl, fun _ => id, id⟩

theorem State.Alike.trans {s t u : State} (h : s.Alike t) (k : t.Alike u) : s.Alike u :=
  ⟨fun m => optionRel_alike_trans (h.stations m) (k.stations m), fun l => (k.lists l).trans (h.lists l),
    fun l => k.lines l ∘ h.lines l, k.link ∘ h.link⟩

theorem State.AlikeBut.then {n : Nat} {s t u : State} (h : s.AlikeBut n t) (k : t.Alike u) : s.AlikeBut n u :=
  ⟨fun m hm => optionRel_alike_trans (h.stations m hm) (k.stations m), fun l => by rw [k.lists l, h.lists l],
    fun l => k.lines l ∘ h.lines l, k.link ∘ h.link⟩

/-! ### What a step keeps -/

/-- A change keeps each of the three invariants, each from itself alone. -/
structure State.Keeps (s t : State) : Prop where
  probeLists : s.ProbeListsHold → t.ProbeListsHold
  addresses : s.AddressesDistinct → t.AddressesDistinct
  counters : s.CountersInRange → t.CountersInRange

theorem State.probeListsHold_iff {s : State} :
    s.ProbeListsHold ↔ ∀ l, (s.line l).probeList.Nodup
      ∧ ∀ n, n ∈ (s.line l).probeList ↔ ∃ e, s.station n = some e ∧ e.listedOn = some l := by
  simp only [State.ProbeListsHold, Station.listedOn_eq_some]

theorem State.countersInRange_iff {s : State} :
    s.CountersInRange ↔ (∀ l, (s.line l).counters.InRange) ∧ s.link.counters.InRange
      ∧ ∀ n e, s.station n = some e → e.InRange := by
  constructor
  · rintro ⟨ha, hb, h⟩
    exact ⟨fun | .a => ha | .b => hb, h⟩
  · rintro ⟨hl, h⟩
    exact ⟨hl .a, hl .b, h⟩

/-- R4: entries that have kept their claims keep the addresses distinct. -/
theorem State.AddressesDistinct.of_revised {s t : State} (h : s.AddressesDistinct)
    (hr : ∀ n f, t.station n = some f → ∃ e, s.station n = some e ∧ e.Revised f) : t.AddressesDistinct := by
  intro l n m f g hf hg hfl hgl ha
  obtain ⟨e, he, re⟩ := hr n f hf
  obtain ⟨d, hd, rd⟩ := hr m g hg
  exact h l n m e d he hd (by rwa [← re.home, ← re.alternate]) (by rwa [← rd.home, ← rd.alternate])
    (by rw [← re.address, ← rd.address, ha])

theorem State.Keeps.refl {s : State} : s.Keeps s := ⟨id, id, id⟩

theorem State.Keeps.trans {s t u : State} (h : s.Keeps t) (k : t.Keeps u) : s.Keeps u :=
  ⟨k.probeLists ∘ h.probeLists, k.addresses ∘ h.addresses, k.counters ∘ h.counters⟩

theorem exists_alike_of_optionRel {e : Option Station} {f : Station} (h : Option.Rel Station.Alike e (some f)) :
    ∃ d, e = some d ∧ d.Alike f := by
  cases h with
  | some h => exact ⟨_, rfl, h⟩

theorem listed_congr {e f : Option Station} (h : Option.Rel Station.Alike e f) (l : LineId) :
    (∃ d, f = some d ∧ d.listedOn = some l) ↔ ∃ d, e = some d ∧ d.listedOn = some l := by
  cases h with
  | none => simp
  | some h => simp [h.listedOn]

/-- Changes that leave the states alike keep the invariants. -/
theorem State.Alike.keeps {s t : State} (h : s.Alike t) : s.Keeps t := by
  have entry (n f) (hf : t.station n = some f) : ∃ e, s.station n = some e ∧ e.Alike f :=
    exists_alike_of_optionRel (hf ▸ h.stations n)
  refine ⟨fun hp => ?_, fun ha => ha.of_revised fun n f hf => ?_, fun hc => ?_⟩
  · rw [State.probeListsHold_iff] at hp ⊢
    intro l
    rw [h.lists l]
    exact ⟨(hp l).1, fun n => ((hp l).2 n).trans (listed_congr (h.stations n) l).symm⟩
  · obtain ⟨e, he, hr⟩ := entry n f hf
    exact ⟨e, he, hr.toRevised⟩
  · rw [State.countersInRange_iff] at hc ⊢
    obtain ⟨hl, hk, hs⟩ := hc
    refine ⟨fun l => h.lines l (hl l), h.link hk, fun n f hf => ?_⟩
    obtain ⟨e, he, hr⟩ := entry n f hf
    exact hr.inRange (hs n e he)

theorem State.Keeps.then {s t u : State} (h : s.Keeps t) (k : t.Alike u) : s.Keeps u := h.trans k.keeps

/-- R81: station n with a new entry, or with none, taken from the probe lists and put at the tail of the one it belongs
in. -/
def relisted (n : Nat) (f : Option Station) (s : State) : State :=
  probeListed (f.bind Station.listedOn) n (s.setStation n f)

section
variable {n : Nat} {f : Option Station} {s t : State}

theorem relisted_station_ne {m : Nat} (hm : m ≠ n) : (relisted n f s).station m = s.station m :=
  State.station_setStation_ne _ _ hm

theorem relisted_station_same (hn : n < 48) : (relisted n f s).station n = f :=
  State.station_setStation_same _ _ _ hn

theorem relisted_station_none : (relisted n none s).station n = none := by
  change (s.setStation n none).station n = none
  by_cases hn : n < 48
  · exact State.station_setStation_same _ _ _ hn
  · simp [State.station, hn]

theorem relisted_probeList (l : LineId) : ((relisted n f s).line l).probeList
    = (s.line l).probeList.filter (· != n) ++ if f.bind Station.listedOn = some l then [n] else [] := by
  cases l <;> simp [relisted, probeListed, State.line]

theorem relisted_counters (l : LineId) : ((relisted n f s).line l).counters = (s.line l).counters := by
  cases l <;> simp [relisted, probeListed, State.line]

theorem relisted_link : (relisted n f s).link = s.link := by simp [relisted, probeListed]

/-- R5, R81: the probe lists hold, whatever the entry was meanwhile. -/
theorem State.AlikeBut.probeListsHold_relisted (h : s.AlikeBut n t) (hf : (relisted n f t).station n = f)
    (hp : s.ProbeListsHold) : (relisted n f t).ProbeListsHold := by
  rw [State.probeListsHold_iff] at hp ⊢
  intro l
  rw [relisted_probeList, h.lists l]
  constructor
  · refine List.nodup_append.2 ⟨(hp l).1.filter _, by split <;> simp, ?_⟩
    intro a ha b hb
    split at hb <;> simp_all
  · intro m
    by_cases hm : m = n
    · subst hm
      rw [hf]
      cases f with
      | none => simp
      | some g => by_cases hl : g.listedOn = some l <;> simp [hl]
    · rw [relisted_station_ne hm, listed_congr (h.stations m hm) l, ← (hp l).2 m]
      by_cases hl : f.bind Station.listedOn = some l <;> simp [hl, hm]

theorem State.AlikeBut.countersInRange_relisted (h : s.AlikeBut n t) (hf : (relisted n f t).station n = f)
    (hc : s.CountersInRange) (hr : ∀ g, f = some g → g.InRange) : (relisted n f t).CountersInRange := by
  rw [State.countersInRange_iff] at hc ⊢
  obtain ⟨hl, hk, hs⟩ := hc
  refine ⟨fun l => ?_, ?_, fun m g hg => ?_⟩
  · rw [relisted_counters]
    exact h.lines l (hl l)
  · rw [relisted_link]
    exact h.link hk
  by_cases hm : m = n
  · subst hm
    exact hr g (hf ▸ hg)
  · obtain ⟨d, hd, hdg⟩ := exists_alike_of_optionRel (((relisted_station_ne hm).symm.trans hg) ▸ h.stations m hm)
    exact hdg.inRange (hs m d hd)

/-- The entries but that of station n keep their claims. -/
theorem State.AlikeBut.revised_relisted (h : s.AlikeBut n t) {m : Nat} (hm : m ≠ n) {g : Station}
    (hg : (relisted n f t).station m = some g) : ∃ d, s.station m = some d ∧ d.Revised g := by
  obtain ⟨d, hd, hdg⟩ := exists_alike_of_optionRel (((relisted_station_ne hm).symm.trans hg) ▸ h.stations m hm)
  exact ⟨d, hd, hdg.toRevised⟩

/-- R81: a station that is listed again, its claims kept, keeps the invariants. -/
theorem State.AlikeBut.relist {e g : Station} (h : s.AlikeBut n t) (he : s.station n = some e) (hr : e.Revised g) :
    s.Keeps (relisted n (some g) t) := by
  have hf : (relisted n (some g) t).station n = some g := relisted_station_same (State.station_lt he)
  refine ⟨h.probeListsHold_relisted hf, fun ha => ha.of_revised fun m d hd => ?_,
    fun hc => h.countersInRange_relisted hf hc ?_⟩
  · by_cases hm : m = n
    · subst hm
      cases hf.symm.trans hd
      exact ⟨e, he, hr⟩
    · exact h.revised_relisted hm hd
  · rintro _ ⟨⟩
    exact hr.inRange ((State.countersInRange_iff.1 hc).2.2 n e he)

/-- R14: a station that is removed from its list and the table keeps the invariants. -/
theorem State.AlikeBut.remove (h : s.AlikeBut n t) : s.Keeps (relisted n none t) := by
  refine ⟨h.probeListsHold_relisted relisted_station_none, fun ha => ha.of_revised fun m d hd => ?_,
    fun hc => h.countersInRange_relisted relisted_station_none hc fun _ hg => by cases hg⟩
  by_cases hm : m = n
  · subst hm
    rw [relisted_station_none] at hd
    cases hd
  · exact h.revised_relisted hm hd

end

/-- R81: leaving the probe lists and a change of its entry leave a station's others alike. -/
theorem State.AlikeBut.of_left (n : Nat) (e : Option Station) (s : State) :
    s.AlikeBut n (leaveProbeLists n (s.setStation n e)) := by
  refine ⟨fun m hm => ?_, fun l => ?_, fun l => ?_, ?_⟩
  · rw [leaveProbeLists_eq, probeListed_station, State.station_setStation_ne _ _ hm]
    exact optionRel_alike_refl _
  · cases l <;> simp [leaveProbeLists, State.line, List.filter_filter]
  · cases l <;> simp [leaveProbeLists, State.line]
  · simp [leaveProbeLists]

theorem State.AlikeBut.refl (n : Nat) (s : State) : s.AlikeBut n s :=
  ⟨fun _ _ => optionRel_alike_refl _, fun _ => rfl, fun _ => id, id⟩

/-! ### The primitive changes -/

section
variable {s t : State}

theorem State.Alike.onLine (h : s.Alike t) {l : LineId} {f : Line → Line}
    (hp : ∀ ln, (f ln).probeList = ln.probeList := by intro _; rfl)
    (hc : ∀ ln, ln.counters.InRange → (f ln).counters.InRange := by exact fun _ h => h) :
    s.Alike (t.onLine l f) := by
  refine h.trans ⟨fun m => ?_, fun k => ?_, fun k => ?_, ?_⟩
  · rw [State.onLine_station]
    exact optionRel_alike_refl _
  · rw [State.line_onLine]
    split
    · exact hp _
    · rfl
  · rw [State.line_onLine]
    split
    · exact hc _
    · exact id
  · rw [State.onLine_link]
    exact id

/-- A change of none of the station table, the line columns and the link's counters. -/
theorem State.Alike.of_eq (h : s.Alike t) {u : State} (hs : u.stations = t.stations := by rfl)
    (ha : u.lineA = t.lineA := by rfl) (hb : u.lineB = t.lineB := by rfl)
    (hk : u.link.counters = t.link.counters := by rfl) : s.Alike u := by
  have hl (l) : u.line l = t.line l := by cases l <;> assumption
  refine h.trans ⟨fun m => ?_, fun l => by rw [hl l], fun l => by rw [hl l]; exact id, by rw [hk]; exact id⟩
  unfold State.station
  rw [hs]
  exact optionRel_alike_refl _

theorem State.Alike.onPool (h : s.Alike t) {f : Pool → Pool} : s.Alike (t.onPool f) := h.of_eq
theorem State.Alike.onQueue (h : s.Alike t) {f : ReportQueue → ReportQueue} : s.Alike (t.onQueue f) := h.of_eq
theorem State.Alike.onSession (h : s.Alike t) {f : Session → Session} : s.Alike (t.onSession f) := h.of_eq

theorem State.Alike.onLink (h : s.Alike t) {f : Link → Link}
    (hc : ∀ k, k.counters.InRange → (f k).counters.InRange := by exact fun _ h => h) : s.Alike (t.onLink f) :=
  h.trans ⟨fun _ => optionRel_alike_refl _, fun _ => rfl, fun _ => id, hc _⟩

theorem State.Alike.setStation (h : s.Alike t) {n : Nat} {e f : Station} (he : t.station n = some e)
    (hf : e.Alike f := by exact ⟨⟨rfl, rfl, rfl, id⟩, rfl⟩) : s.Alike (t.setStation n (some f)) := by
  refine h.trans ⟨fun m => ?_, fun l => by rw [State.setStation_line], fun l => by rw [State.setStation_line]; exact id,
    by rw [State.setStation_link]; exact id⟩
  by_cases hm : m = n
  · subst hm
    rw [State.station_setStation_same _ _ _ (State.station_lt he), he]
    exact .some hf
  · rw [State.station_setStation_ne _ _ hm]
    exact optionRel_alike_refl _

theorem State.Alike.onStation (h : s.Alike t) {n : Nat} {f : Station → Station}
    (hf : ∀ e, Station.Alike e (f e) := by exact fun _ => ⟨⟨rfl, rfl, rfl, id⟩, rfl⟩) : s.Alike (t.onStation n f) := by
  cases he : t.station n with
  | none => rwa [State.onStation_of_none he]
  | some e =>
    rw [State.onStation_of_station he]
    exact h.setStation he (hf e)

end

end Sys2Proof.Machine
end

section
/-! SUPPORT. The shared operations, each leaving the states alike, or, where a station changes its probe list, keeping
the invariants. -/

namespace Sys2Proof.Machine

section
variable {s t : State}

/-! ### The report queue and the command pool -/

theorem State.Alike.enqueue (h : s.Alike t) {r : Report} : s.Alike (enqueue r t) := h.of_eq
theorem State.Alike.convert (h : s.Alike t) {r : Report} : s.Alike (convert r t) := h.of_eq
theorem State.Alike.onRecord (h : s.Alike t) {tag : Half} {f : CommandRecord → CommandRecord} :
    s.Alike (onRecord tag f t) := h.of_eq

theorem State.Alike.resetBusyStreak (h : s.Alike t) {r : CommandRecord} {b : Bool} :
    s.Alike (resetBusyStreak r b t) := by
  unfold Machine.resetBusyStreak
  split
  · exact h
  · split
    · exact h.onStation Station.clearBusyStreak_alike
    · exact h

theorem State.Alike.completeRecord (h : s.Alike t) {r : CommandRecord} {o : CommandOutcome} {d : List Byte} :
    s.Alike (completeRecord r o d t) := h.onPool.convert.resetBusyStreak

theorem State.Alike.completeRecords (h : s.Alike t) {rs : List CommandRecord} {o : CommandOutcome} :
    s.Alike (completeRecords rs o t) := by
  unfold Machine.completeRecords
  induction rs generalizing t with
  | nil => exact h
  | cons r rs ih => exact ih h.completeRecord

theorem State.Alike.resyncRelease (h : s.Alike t) {n : Nat} : s.Alike (resyncRelease n t) := h.completeRecords
theorem State.Alike.completeAllOf (h : s.Alike t) {n : Nat} {o : CommandOutcome} : s.Alike (completeAllOf n o t) :=
  h.completeRecords
theorem State.Alike.moveRecords (h : s.Alike t) {n : Nat} {l : LineId} : s.Alike (moveRecords n l t) := h.onPool

/-! ### Stations and probe lists -/

theorem Station.listedOn_toProbing (e : Station) : e.toProbing.listedOn = some e.current := rfl
theorem Station.listedOn_toDisabled (e : Station) : e.toDisabled.listedOn = none := rfl

/-- R10. -/
theorem State.Alike.raiseNotice (h : s.Alike t) {n : Nat} {c : StationCause} :
    s.Alike (t.onStation n (·.raiseNotice c)) := h.onStation fun e => e.raiseNotice_alike c

theorem joinProbeList_leaveProbeLists (l : LineId) (n : Nat) (s : State) :
    joinProbeList l n (leaveProbeLists n s) = probeListed (some l) n s := by
  cases l <;> simp [joinProbeList, leaveProbeLists, probeListed, State.onLine]

/-- R6: whatever happened to the entry since, entering PROBING lists the station again. -/
theorem State.AlikeBut.enterProbing {n : Nat} {e f : Station} (h : s.AlikeBut n t) (he : s.station n = some e)
    (hf : t.station n = some f) (hr : e.Revised f) : s.Keeps (enterProbing n t) := by
  rw [enterProbing_eq hf]
  exact h.relist he (hr.trans f.toProbing_revised)

theorem enterProbing_keeps (n : Nat) (s : State) : s.Keeps (enterProbing n s) := by
  cases he : s.station n with
  | none =>
    unfold enterProbing
    rw [he]
    exact .refl
  | some e => exact (State.AlikeBut.refl n s).enterProbing he he (Station.Alike.refl e).toRevised

/-- R14: an undefined entry stands in no probe list. -/
theorem leaveProbeLists_keeps_of_none {n : Nat} {s : State} (he : s.station n = none) :
    s.Keeps (leaveProbeLists n s) := by
  have : leaveProbeLists n s = relisted n none s := by
    rw [leaveProbeLists_eq, relisted, ← he, State.setStation_station, he]
    rfl
  exact this ▸ (State.AlikeBut.refl n s).remove

theorem enterDisabled_keeps (n : Nat) (s : State) : s.Keeps (enterDisabled n s) := by
  cases he : s.station n with
  | none =>
    rw [enterDisabled, State.onStation_of_none he]
    exact leaveProbeLists_keeps_of_none he
  | some e =>
    rw [enterDisabled_eq he]
    exact (State.AlikeBut.refl n s).relist he e.toDisabled_revised

theorem disableTakesEffect_keeps (n : Nat) (s : State) : s.Keeps (disableTakesEffect n s) :=
  (enterDisabled_keeps n s).then (State.Alike.refl.completeAllOf.raiseNotice)

theorem resolveDisable_keeps (n : Nat) (s : State) : s.Keeps (resolveDisable n s) := by
  unfold resolveDisable
  split
  · exact .refl
  · split
    · exact disableTakesEffect_keeps n s
    · exact .refl

/-! ### Loss and recovery -/

theorem stationReached_keeps {n : Nat} {e : Station} {s : State} (he : s.station n = some e) :
    s.Keeps (stationReached n s) := by
  rw [stationReached_eq he]
  refine (State.AlikeBut.refl n s).relist he ?_
  have online : e.Revised { e with state := .online, failures := 0, probeTimer := none } :=
    ⟨rfl, rfl, rfl, (e.setFailures_alike (Nat.zero_le _)).inRange⟩
  exact online.trans ((Station.startPollTimer_alike _).trans (Station.raiseNotice_alike _ _)).toRevised

theorem stationAnswered_keeps (n : Nat) (s : State) : s.Keeps (stationAnswered n s) := by
  unfold stationAnswered
  split
  · exact .refl
  next e he =>
    split
    next => exact .refl
    next => exact .refl
    next hs =>
      have recovered : e.Alike { e with state := .online, failures := 0 } :=
        ⟨⟨rfl, rfl, rfl, (e.setFailures_alike (Nat.zero_le _)).inRange⟩, by simp [Station.listedOn, hs]⟩
      exact (State.Alike.refl.setStation he (recovered.trans (Station.raiseNotice_alike _ _))).keeps
    next => exact stationReached_keeps he
    next => exact stationReached_keeps he

theorem enterOffline_keeps (n : Nat) (s : State) : s.Keeps (enterOffline n s) := by
  unfold enterOffline
  split
  · exact .refl
  next e he =>
    split
    next hs =>
      have lost : e.Alike { e with state := .offline } := ⟨⟨rfl, rfl, rfl, id⟩, by simp [Station.listedOn, hs]⟩
      exact (State.Alike.refl.setStation he lost).keeps
    next =>
      rw [joinProbeList_leaveProbeLists]
      exact (State.AlikeBut.refl n s).relist he ⟨rfl, rfl, rfl, id⟩

theorem loseStation_keeps (n : Nat) (s : State) : s.Keeps (loseStation n s) :=
  (enterOffline_keeps n s).then (State.Alike.refl.completeAllOf.raiseNotice)

/-- R114: between leaving its list on the old line and entering PROBING on the new one the station stands in none. -/
theorem failOver_keeps (n : Nat) (s : State) : s.Keeps (failOver n s) := by
  unfold failOver
  split
  · exact .refl
  next e he =>
    have left : (leaveProbeLists n s).onStation n Station.switchLine
        = leaveProbeLists n (s.setStation n (some e.switchLine)) := by
      rw [leaveProbeLists_eq, probeListed_onStation, State.onStation_of_station he, leaveProbeLists_eq]
    simp only [left]
    have others := State.AlikeBut.of_left n (some e.switchLine) s
    have entry : (leaveProbeLists n (s.setStation n (some e.switchLine))).station n = some e.switchLine :=
      State.station_setStation_same _ _ _ (State.station_lt he)
    generalize leaveProbeLists n (s.setStation n (some e.switchLine)) = u at others entry ⊢
    have moved : u.Alike (moveRecords n e.current.other (resyncRelease n u)) :=
      State.Alike.refl.resyncRelease.moveRecords
    have hf := moved.stations n
    rw [entry] at hf
    cases hn : (moveRecords n e.current.other (resyncRelease n u)).station n with
    | none =>
      rw [hn] at hf
      cases hf
    | some f =>
      rw [hn] at hf
      cases hf with
      | some hf =>
        exact ((others.then moved).enterProbing he hn (e.switchLine_revised.trans hf.toRevised)).then
          State.Alike.refl.raiseNotice

theorem compareThreshold_keeps (n : Nat) (s : State) : s.Keeps (compareThreshold n s) := by
  unfold compareThreshold
  split
  · exact .refl
  · split
    · split
      · exact failOver_keeps n s
      · exact loseStation_keeps n s
    · exact .refl

theorem stationFailed_keeps (n : Nat) (s : State) : s.Keeps (stationFailed n s) := by
  unfold stationFailed
  split
  · exact .refl
  next e he =>
    have failed : e.Alike { e with failures := bump15 e.failures } := e.setFailures_alike (bump15_le _)
    have counted : s.Alike (s.setStation n (some { e with failures := bump15 e.failures })) :=
      State.Alike.refl.setStation he failed
    split
    next => exact .refl
    next hs =>
      have suspected : e.Alike { e with failures := bump15 e.failures, state := .suspect } :=
        ⟨⟨rfl, rfl, rfl, failed.inRange⟩, by simp [Station.listedOn, hs]⟩
      exact (State.Alike.refl.setStation he (suspected.trans (Station.raiseNotice_alike _ _))).keeps.trans
        (compareThreshold_keeps n _)
    next => exact counted.keeps.trans (compareThreshold_keeps n _)
    next => exact counted.keeps.trans (compareThreshold_keeps n _)
    next => exact counted.keeps

end

end Sys2Proof.Machine
end

section
/-! SUPPORT. The operations of a line column: all but the end of an exchange and a line reset leave the states alike. -/

namespace Sys2Proof.Machine

/-! ### Line counters (R39) -/

section
variable {c : LineCounters}

theorem LineCounters.InRange.countSent (h : c.InRange) : c.countSent.InRange :=
  have ⟨_, h⟩ := h
  ⟨bump_le _, h⟩

theorem LineCounters.InRange.countFraming (h : c.InRange) : c.countFraming.InRange :=
  have ⟨h1, h2, h3, _, h⟩ := h
  ⟨h1, h2, h3, bump_le _, h⟩

theorem LineCounters.InRange.countGlitch (h : c.InRange) :
    ({ c with glitches := bump c.glitches } : LineCounters).InRange :=
  have ⟨h1, h2, h3, h4, _, h⟩ := h
  ⟨h1, h2, h3, h4, bump_le _, h⟩

theorem LineCounters.InRange.countAbandoned (h : c.InRange) : c.countAbandoned.InRange :=
  have ⟨h1, h2, h3, h4, h5, _, h⟩ := h
  ⟨h1, h2, h3, h4, h5, bump_le _, h⟩

theorem LineCounters.InRange.countStray (h : c.InRange) : c.countStray.InRange :=
  have ⟨h1, h2, h3, h4, h5, h6, _, h⟩ := h
  ⟨h1, h2, h3, h4, h5, h6, bump_le _, h⟩

theorem LineCounters.InRange.countStuck (h : c.InRange) :
    ({ c with stuckEvents := bump c.stuckEvents } : LineCounters).InRange :=
  have ⟨h1, h2, h3, h4, h5, h6, h7, _, h⟩ := h
  ⟨h1, h2, h3, h4, h5, h6, h7, bump_le _, h⟩

theorem LineCounters.InRange.countLost (h : c.InRange) : c.countLost.InRange :=
  have ⟨h1, h2, h3, h4, h5, h6, h7, h8, _, h10⟩ := h
  ⟨h1, h2, h3, h4, h5, h6, h7, h8, bump_le _, h10⟩

theorem LineCounters.InRange.countAttempt (h : c.InRange) : c.countAttempt.InRange :=
  have ⟨h1, h2, h3, h4, h5, h6, h7, h8, h9, _⟩ := h
  ⟨h1, h2, h3, h4, h5, h6, h7, h8, h9, bump_le _⟩

theorem LineCounters.InRange.countFrame (h : c.InRange) (framing crc : Bool) : (c.countFrame framing crc).InRange := by
  obtain ⟨h1, h2, h3, hr⟩ := h
  unfold LineCounters.countFrame
  split
  · exact ⟨h1, h2, bump_le _, hr⟩
  · split
    · exact ⟨h1, h2, h3, hr⟩
    · exact ⟨h1, bump_le _, h3, hr⟩

theorem LineCounters.zero_inRange : LineCounters.zero.InRange := by simp [LineCounters.InRange, LineCounters.zero]

end

section
variable {s t : State} {l : LineId}

/-! ### Work given back -/

/-- R62, R67: the record an exchange carries returns to its list, or completes CANCELLED where a cancel is pending. -/
def giveBack (x : Exchange) (s : State) : State :=
  match x.record with
  | none => s
  | some tag =>
    match s.pool.find tag with
    | none => s
    | some r =>
      if r.cancelPending then completeRecord r .cancelled [] s
      else onRecord tag (fun r => { r with state := .queued }) s

/-- R62: below the busy limit. -/
theorem busyDisposition_of_lt {x : Exchange} {streak : Nat} (h : ¬(s.line l).config.busyLimit ≤ streak) :
    busyDisposition l x streak s = giveBack x s := by
  unfold busyDisposition
  exact if_neg h

/-- R67: a COMMAND or BROADCAST gives its record back. -/
theorem disposeWork_of_record {x : Exchange} (h : x.kind = .command ∨ x.kind = .broadcast) :
    disposeWork l x s = giveBack x s := by
  unfold disposeWork
  rcases h with h | h <;> rw [h] <;> rfl

/-! ### Counters, notice, assembler, scans -/

theorem State.Alike.countLine (h : s.Alike t) {f : LineCounters → LineCounters}
    (hf : ∀ c : LineCounters, c.InRange → (f c).InRange) : s.Alike (countLine l f t) :=
  h.onLine (hc := fun _ => hf _)

theorem State.Alike.raiseLineNotice (h : s.Alike t) {c : LineCause} : s.Alike (raiseLineNotice l c t) := h.onLine

theorem State.Alike.endAssembly (h : s.Alike t) : s.Alike (endAssembly l t) := by
  refine h.onLine (fun ln => ?_) (fun ln hc => ?_)
  · split <;> rfl
  · split
    · exact hc
    · exact hc.countAbandoned

theorem State.Alike.endScan (h : s.Alike t) {status : ScanStatus} : s.Alike (endScan l status t) := by
  unfold Machine.endScan
  split
  · exact h
  · exact h.convert.onLine

theorem State.Alike.rollCallResult (h : s.Alike t) {present : Bool} : s.Alike (rollCallResult l present t) := by
  unfold Machine.rollCallResult
  split
  · exact h
  next sc _ =>
    split
    · exact h
    · have handed (responders) :
          s.Alike (t.onLine l fun ln => { ln with scan := some { sc with rollCall := false, responders } }) := h.onLine
      dsimp only
      split
      · exact (handed _).endScan
      · exact handed _

/-! ### The exchange engine -/

theorem State.Alike.onExchange (h : s.Alike t) {f : Exchange → Exchange} : s.Alike (onExchange l f t) := h.onLine

theorem State.Alike.onCarried (h : s.Alike t) {x : Exchange} {f : CommandRecord → CommandRecord} :
    s.Alike (onCarried x f t) := by
  unfold Machine.onCarried
  split
  · exact h
  · exact h.onRecord

theorem State.Alike.onNamed (h : s.Alike t) {x : Exchange} {f : Station → Station}
    (hf : ∀ e : Station, e.Alike (f e) := by exact fun _ => ⟨⟨rfl, rfl, rfl, id⟩, rfl⟩) : s.Alike (onNamed x f t) := by
  unfold Machine.onNamed
  split
  · exact h
  · exact h.onStation hf

theorem State.Alike.completeCarried (h : s.Alike t) {x : Exchange} {o : CommandOutcome} {d : List Byte} :
    s.Alike (completeCarried x o d t) := by
  unfold Machine.completeCarried
  split
  · exact h
  · split
    · exact h
    · exact h.completeRecord

theorem State.Alike.decideOutcome (h : s.Alike t) {o : ExchangeOutcome} : s.Alike (decideOutcome l o t) := h.onExchange

theorem State.Alike.beginAttempt (h : s.Alike t) {x : Exchange} : s.Alike (beginAttempt l x t) := h.onCarried.onLine

theorem State.Alike.startExchange (h : s.Alike t) {kind : ExchangeKind} {station : Option Nat} {target : Nat}
    {record : Option Half} {holds toggle : Bool} {payload : List Byte} :
    s.Alike (startExchange l kind station target record holds toggle payload t) := h.onCarried.beginAttempt

theorem State.Alike.enterGap (h : s.Alike t) : s.Alike (enterGap l t) := by
  refine h.onLine (hc := fun ln hc => ?_)
  show LineCounters.InRange (if _ then _ else _)
  split
  · exact hc.countStray
  · exact hc

theorem State.Alike.release (h : s.Alike t) : s.Alike (release t) := h.onQueue
theorem State.Alike.grant (h : s.Alike t) : s.Alike (grant t) := h.onQueue

theorem State.Alike.releaseHeld (h : s.Alike t) {x : Exchange} : s.Alike (releaseHeld x t) := by
  unfold Machine.releaseHeld
  split
  · exact h.release
  · exact h

theorem State.Alike.exchangeFailed (h : s.Alike t) {x : Exchange} : s.Alike (exchangeFailed l x t) := by
  refine State.Alike.decideOutcome ?_
  split
  · exact h.releaseHeld.onNamed Station.startPollTimer_alike
  · exact h.releaseHeld
  · exact h.completeCarried
  · exact h
  · exact h

theorem State.Alike.recordFailedAttempt (h : s.Alike t) {x : Exchange} {k : FailureKind} :
    s.Alike (recordFailedAttempt l x k t) :=
  (h.onExchange.onCarried.onNamed fun e => e.recordFailure_alike k).countLine fun _ => .countAttempt

theorem State.Alike.failAttempt (h : s.Alike t) {k : FailureKind} : s.Alike (failAttempt l k t) := by
  unfold Machine.failAttempt
  split
  · exact h
  · refine State.Alike.enterGap ?_
    split
    · exact h.recordFailedAttempt
    · exact h.recordFailedAttempt.exchangeFailed

theorem State.Alike.endRollCall (h : s.Alike t) {present : Bool} : s.Alike (endRollCall l present t) :=
  h.rollCallResult.decideOutcome.enterGap

theorem State.Alike.acceptData (h : s.Alike t) {x : Exchange} {d : List Byte} : s.Alike (acceptData x d t) := by
  unfold Machine.acceptData
  split
  · exact h
  · exact h.convert.onStation fun e =>
      (e.countCompleted_alike.trans (Station.countData_alike _)).trans (Station.flip_alike _)

/-- R56, R58: the reservation is released, and the reply counted with the holdoff timer started. -/
theorem State.Alike.acceptBusy (h : s.Alike t) {x : Exchange} {ms : Nat} :
    s.Alike (Machine.onNamed x (fun e => e.countCompleted.holdOff ms) (Machine.releaseHeld x t)) :=
  h.releaseHeld.onNamed fun e => e.countCompleted_alike.trans (Station.holdOff_alike _ _)

/-- R56, R58: the reservation is released, and the reply counted with the toggle flipped. -/
theorem State.Alike.acceptEmpty (h : s.Alike t) {x : Exchange} :
    s.Alike (Machine.onNamed x (fun e => e.countCompleted.flip) (Machine.releaseHeld x t)) :=
  h.releaseHeld.onNamed fun e => e.countCompleted_alike.trans (Station.flip_alike _)

theorem State.Alike.acceptProbe (h : s.Alike t) {x : Exchange} {k : ReplyKind} {d : List Byte} :
    s.Alike (acceptProbe l x k d t) := by
  unfold Machine.acceptProbe
  split
  · exact h.acceptData
  · exact h.acceptBusy
  · exact h.acceptEmpty

theorem State.Alike.acceptPoll (h : s.Alike t) {x : Exchange} {k : ReplyKind} {d : List Byte} :
    s.Alike (acceptPoll l x k d t) := by
  refine State.Alike.onNamed ?_ Station.startPollTimer_alike
  split
  · exact h.acceptData
  · exact h.acceptBusy
  · exact h.acceptEmpty

theorem State.Alike.acceptCommand (h : s.Alike t) {x : Exchange} {o : CommandOutcome} {d : List Byte} :
    s.Alike (acceptCommand x o d t) :=
  h.completeCarried.onNamed fun e =>
    (e.countCompleted_alike.trans (Station.flip_alike _)).trans
      ((Station.clearBusyStreak_alike _).trans (Station.startPollTimer_alike _))

theorem State.Alike.giveBack (h : s.Alike t) {x : Exchange} : s.Alike (giveBack x t) := by
  unfold Machine.giveBack
  split
  · exact h
  · split
    · exact h
    · split
      · exact h.completeRecord
      · exact h.onRecord

theorem State.Alike.busyDisposition (h : s.Alike t) {x : Exchange} {streak : Nat} :
    s.Alike (busyDisposition l x streak t) := by
  by_cases hl : (t.line l).config.busyLimit ≤ streak
  · rw [Machine.busyDisposition, if_pos hl]
    refine h.completeCarried.onNamed fun e => ?_
    have noted : e.Alike { e with sticky := addSticky e.sticky .busyLimit } := ⟨⟨rfl, rfl, rfl, id⟩, rfl⟩
    exact noted.trans (Station.clearBusyStreak_alike _)
  · rw [busyDisposition_of_lt hl]
    exact h.giveBack

theorem State.Alike.acceptCommandBusy (h : s.Alike t) {x : Exchange} : s.Alike (acceptCommandBusy l x t) := by
  unfold Machine.acceptCommandBusy
  split
  · exact h
  · split
    · exact h
    next e he =>
      exact (h.setStation he ((e.countCompleted_alike.trans (Station.holdOff_alike _ _)).trans
        (Station.setBusyStreak_alike _ (bump15_le _)))).busyDisposition

theorem State.Alike.acceptReply (h : s.Alike t) {x : Exchange} {k : ReplyKind} {d : List Byte} :
    s.Alike (acceptReply l x k d t) := by
  refine State.Alike.decideOutcome ?_
  split
  · exact h.acceptPoll
  · exact h.acceptProbe
  · exact h.acceptCommandBusy
  · exact h.acceptCommand
  · exact h.acceptCommand
  · exact h
  · exact h

theorem State.Alike.judgeReply (h : s.Alike t) {u : HandedUp} : s.Alike (judgeReply l u t) := by
  unfold Machine.judgeReply
  split
  · exact h
  · split
    · exact h
    · split
      · exact h.endRollCall
      · exact h.failAttempt
      · exact h.failAttempt
      · exact h.acceptReply.enterGap

theorem State.Alike.disposeWork (h : s.Alike t) {x : Exchange} : s.Alike (disposeWork l x t) := by
  cases hk : x.kind
  case poll =>
    rw [Machine.disposeWork, hk]
    exact h.releaseHeld.onNamed
  case probe =>
    rw [Machine.disposeWork, hk]
    exact h.releaseHeld.onNamed
  case rollCall =>
    rw [Machine.disposeWork, hk]
    exact h.rollCallResult
  case command => exact disposeWork_of_record (.inl hk) ▸ h.giveBack
  case broadcast => exact disposeWork_of_record (.inr hk) ▸ h.giveBack

theorem State.Alike.exchangeFrameLeft (h : s.Alike t) {x : Exchange} : s.Alike (exchangeFrameLeft l x t) := by
  have left := ((h.countLine (l := l) fun _ => .countSent).onCarried (x := x)
    (f := fun r => { r with transmitted := true })).onExchange (l := l)
      (f := fun x => { x with phase := .guard, charsSent := x.frame.length })
  unfold Machine.exchangeFrameLeft
  dsimp only
  split
  · exact left.completeCarried.decideOutcome
  · exact left

/-! ### Capture and line tests -/

theorem State.Alike.captureFrame (h : s.Alike t) {u : HandedUp} : s.Alike (captureFrame l u t) := by
  unfold Machine.captureFrame
  split
  · exact h.enqueue
  · exact h.countLine fun _ => .countLost

theorem State.Alike.endTest (h : s.Alike t) {status : TestStatus} : s.Alike (endTest l status t) := by
  unfold Machine.endTest
  split
  · exact h
  · exact h.endAssembly.convert.onLine.raiseLineNotice

theorem State.Alike.judgeTest (h : s.Alike t) {matched : Bool} : s.Alike (judgeTest l matched t) := by
  unfold Machine.judgeTest
  split
  · exact h
  · have judged (u : LineTest) : s.Alike
        (if u.count ≤ u.index + 1 then Machine.endTest l .complete (t.onLine l fun ln => { ln with test := some u })
        else t.onLine l fun ln =>
          { ln with test := some { u with phase := .gap, handed := none, timer := some ln.config.lineGap } }) := by
      split
      · exact h.onLine.endTest
      · exact h.onLine
    exact judged _

theorem State.Alike.testHandedUp (h : s.Alike t) {u : HandedUp} : s.Alike (testHandedUp l u t) := by
  unfold Machine.testHandedUp
  split
  · exact h
  · split
    · exact h.onLine
    · exact h.judgeTest
    · exact h

theorem State.Alike.testAwaits (h : s.Alike t) : s.Alike (testAwaits l t) := by
  unfold Machine.testAwaits
  dsimp only
  split
  · exact h.onLine
  · exact h.onLine.judgeTest

theorem State.Alike.handUp (h : s.Alike t) {u : HandedUp} : s.Alike (handUp l u t) := by
  unfold Machine.handUp
  split
  · exact h
  · exact h.judgeReply
  · exact h.captureFrame
  · exact h.testHandedUp

theorem State.Alike.takeMode (h : s.Alike t) {m : LineMode} : s.Alike (takeMode l m t) := by
  refine h.onLine (fun ln => ?_) (fun ln hc => ?_) <;> split
  · rfl
  · rfl
  · rfl
  · exact hc
  · exact hc
  · exact hc

/-! ### The end of an exchange, modes and line resets -/

theorem applyResult_keeps (n : Nat) (r : ExchangeResult) (s : State) : s.Keeps (applyResult n r s) := by
  cases r
  case answered => exact stationAnswered_keeps n s
  case failed => exact stationFailed_keeps n s
  case nothing => exact .refl

theorem endExchange_keeps (l : LineId) (s : State) : s.Keeps (endExchange l s) := by
  unfold endExchange
  split
  · exact .refl
  · have emptied : s.Keeps (s.onLine l fun ln => { ln with exchange := none }) := State.Alike.refl.onLine.keeps
    dsimp only
    split
    · exact emptied
    · exact (emptied.trans (applyResult_keeps ..)).trans (resolveDisable_keeps ..)

theorem cutOff_keeps (l : LineId) (s : State) : s.Keeps (cutOff l s) := by
  have released : s.Alike ((endAssembly l s).onLine l fun ln => { ln with driver := ln.driverOff }) :=
    State.Alike.refl.endAssembly.onLine
  unfold cutOff
  dsimp only
  split
  · exact released.keeps
  · refine State.Keeps.trans ?_ (endExchange_keeps l _)
    split
    · exact released.keeps
    · exact released.disposeWork.keeps

theorem endLineWork_keeps (l : LineId) (s : State) : s.Keeps (endLineWork l s) := by
  unfold endLineWork
  split
  · exact State.Alike.refl.endTest.keeps
  · exact (cutOff_keeps l s).then State.Alike.refl.endScan.onLine
  · exact .refl

theorem changeMode_keeps (l : LineId) (m : LineMode) (s : State) : s.Keeps (changeMode l m s) := by
  unfold changeMode
  dsimp only
  split
  · exact endLineWork_keeps l s
  · exact (endLineWork_keeps l s).then State.Alike.refl.endAssembly.takeMode.raiseLineNotice

theorem resetStation_keeps (l : LineId) (s : State) (n : Nat) : s.Keeps (resetStation l s n) := by
  unfold resetStation
  split
  · exact .refl
  · split
    · refine ((State.Alike.refl.resyncRelease.keeps.trans (enterProbing_keeps n _))).then
        (State.Alike.refl.onStation fun e => ?_)
      have cleared : e.Alike { e with pendingDisable := false } := ⟨⟨rfl, rfl, rfl, id⟩, rfl⟩
      exact cleared.trans (Station.raiseNotice_alike _ _)
    · exact .refl

theorem foldl_resetStation_keeps (l : LineId) (ns : List Nat) (s : State) : s.Keeps (ns.foldl (resetStation l) s) := by
  induction ns generalizing s with
  | nil => exact .refl
  | cons n ns ih => exact (resetStation_keeps l s n).trans (ih _)

theorem endWorkForReset_keeps (l : LineId) (s : State) : s.Keeps (endWorkForReset l s) := by
  unfold endWorkForReset
  split
  · exact State.Alike.refl.endTest.keeps
  · exact (cutOff_keeps l s).then State.Alike.refl.endScan
  · exact .refl

theorem resetLineNow_keeps (l : LineId) (s : State) : s.Keeps (resetLineNow l s) := by
  have cleared (u : State) : u.Alike (u.onLine l clearLine) :=
    State.Alike.refl.onLine (hc := fun _ _ => LineCounters.zero_inRange)
  exact (((endWorkForReset_keeps l s).then (cleared _)).trans (foldl_resetStation_keeps l _ _)).then
    State.Alike.refl.raiseLineNotice

end

end Sys2Proof.Machine
end

section
/-! SUPPORT. The operations of the host link, of the receivers, of the scheduler and of the requests. -/

namespace Sys2Proof.Machine

/-! ### Link counters (R166) -/

section
variable {c : LinkCounters}

theorem LinkCounters.InRange.countDiscarded (h : c.InRange) : c.countDiscarded.InRange :=
  have ⟨_, h⟩ := h
  ⟨bump_le _, h⟩

theorem LinkCounters.InRange.countBad (h : c.InRange) : c.countBad.InRange :=
  have ⟨h1, _, h⟩ := h
  ⟨h1, bump_le _, h⟩

theorem LinkCounters.InRange.countTimeout (h : c.InRange) : c.countTimeout.InRange :=
  have ⟨h1, h2, _, h⟩ := h
  ⟨h1, h2, bump_le _, h⟩

theorem LinkCounters.InRange.countDuplicate (h : c.InRange) : c.countDuplicate.InRange :=
  have ⟨h1, h2, h3, _, h⟩ := h
  ⟨h1, h2, h3, bump_le _, h⟩

theorem LinkCounters.InRange.countBackoff (h : c.InRange) : c.countBackoff.InRange :=
  have ⟨h1, h2, h3, h4, _, h⟩ := h
  ⟨h1, h2, h3, h4, bump_le _, h⟩

theorem LinkCounters.InRange.countDropped (h : c.InRange) : c.countDropped.InRange :=
  have ⟨h1, h2, h3, h4, h5, _, h⟩ := h
  ⟨h1, h2, h3, h4, h5, bump_le _, h⟩

theorem LinkCounters.InRange.countStrayAck (h : c.InRange) : c.countStrayAck.InRange :=
  have ⟨h1, h2, h3, h4, h5, h6, _, h⟩ := h
  ⟨h1, h2, h3, h4, h5, h6, bump_le _, h⟩

theorem LinkCounters.InRange.countRun (h : c.InRange) : c.countRun.InRange :=
  have ⟨h1, h2, h3, h4, h5, h6, h7, _, h9⟩ := h
  ⟨h1, h2, h3, h4, h5, h6, h7, bump_le _, h9⟩

theorem LinkCounters.InRange.countStall (h : c.InRange) : c.countStall.InRange :=
  have ⟨h1, h2, h3, h4, h5, h6, h7, h8, _⟩ := h
  ⟨h1, h2, h3, h4, h5, h6, h7, h8, bump_le _⟩

theorem LinkCounters.zero_inRange : LinkCounters.zero.InRange := by simp [LinkCounters.InRange, LinkCounters.zero]

end

section
variable {s t : State} {l : LineId}

/-! ### The host link -/

theorem State.Alike.countLink (h : s.Alike t) {f : LinkCounters → LinkCounters}
    (hf : ∀ c : LinkCounters, c.InRange → (f c).InRange) : s.Alike (countLink f t) :=
  h.onLink (hc := fun _ => hf _)

theorem State.Alike.queueIfRoom (h : s.Alike t) {r : Response} : s.Alike (queueIfRoom r t) := by
  unfold Machine.queueIfRoom
  split
  · exact h.onLink
  · exact h.countLink fun _ => .countDropped

theorem State.Alike.respond (h : s.Alike t) {r : Request} {rep : Reply} {b : Bool} : s.Alike (respond r rep b t) :=
  h.onLink

theorem State.Alike.answerHeld (h : s.Alike t) : s.Alike (answerHeld t) := by
  unfold Machine.answerHeld
  split
  · exact h
  · exact h.onLink.respond

theorem State.Alike.beginRun (h : s.Alike t) : s.Alike (beginRun t) := h.onSession.countLink fun _ => .countRun

theorem State.Alike.returnFromStall (h : s.Alike t) : s.Alike (returnFromStall t) := by
  unfold Machine.returnFromStall
  split
  · exact h.onSession.beginRun
  · exact h

theorem State.Alike.takeAck (h : s.Alike t) {n : Half} : s.Alike (takeAck n t) := by
  unfold Machine.takeAck
  split
  · unfold Machine.acknowledge
    dsimp only
    split
    · exact h.onQueue.onSession
    · exact h.onQueue.onSession
  · exact h.countLink fun _ => .countStrayAck

theorem State.Alike.startHostFrame (h : s.Alike t) : s.Alike (startHostFrame t) := by
  unfold Machine.startHostFrame
  split
  · split
    · exact h.onLink
    · split
      · exact h.of_eq
      · split
        · exact h.onLink
        · exact h
  · exact h

theorem State.Alike.restartAckTimer (h : s.Alike t) : s.Alike (restartAckTimer t) := by
  unfold Machine.restartAckTimer
  split
  · exact h.onSession
  · exact h

theorem State.Alike.expireAckTimer (h : s.Alike t) : s.Alike (expireAckTimer t) := by
  unfold Machine.expireAckTimer
  split
  · exact h.onSession.beginRun
  · exact h.onSession.countLink fun _ => .countStall

theorem State.Alike.expireHelloTimer (h : s.Alike t) : s.Alike (expireHelloTimer t) := by
  refine h.onLink fun k hk => ?_
  split
  · exact hk
  · exact hk

theorem State.Alike.arrive (h : s.Alike t) {r : Request} : s.Alike (arrive r t) := by
  unfold Machine.arrive
  split
  · exact h.queueIfRoom.countLink fun _ => .countDuplicate
  · split
    · exact h.countLink fun _ => .countDuplicate
    · split
      · dsimp only
        split
        · exact h.queueIfRoom.countLink fun _ => .countBackoff
        · exact h.queueIfRoom
      · exact h.onLink

/-! ### The receiver of a line -/

theorem State.Alike.receiveCharacter (h : s.Alike t) {fe : Bool} : s.Alike (receiveCharacter l fe t) := by
  refine h.onLine (hc := fun ln hc => ?_)
  show LineCounters.InRange (if _ then _ else _)
  split
  · exact hc.countFraming
  · exact hc

theorem State.Alike.receiveStray (h : s.Alike t) {fe : Bool} : s.Alike (receiveStray l fe t) :=
  h.onLine (hc := fun _ hc => hc.countStray)

theorem State.Alike.holdPartial (h : s.Alike t) {cs : List Byte} {fe : Bool} : s.Alike (holdPartial l cs fe t) :=
  h.onLine

theorem State.Alike.beginFrame (h : s.Alike t) {b : Byte} {fe : Bool} : s.Alike (beginFrame l b fe t) := by
  unfold Machine.beginFrame
  split
  · exact h.holdPartial.onExchange
  · exact (h.countLine fun _ => .countAbandoned).holdPartial.handUp

theorem State.Alike.abandonFrame (h : s.Alike t) {cs : List Byte} {fe : Bool} {c : AbandonCause} :
    s.Alike (abandonFrame l cs fe c t) :=
  (h.onLine (hc := fun _ hc => hc.countAbandoned)).handUp

theorem State.Alike.completeFrame (h : s.Alike t) {cs : List Byte} {fe : Bool} : s.Alike (completeFrame l cs fe t) :=
  (h.onLine (hc := fun _ hc => hc.countFrame _ _)).handUp

theorem State.Alike.takeCharacter (h : s.Alike t) {k : CharacterClass} {b : Byte} {fe : Bool} :
    s.Alike (takeCharacter l k b fe t) := by
  cases k
  case stray => exact h.receiveStray
  case begins => exact h.receiveCharacter.beginFrame
  case added => exact h.receiveCharacter.holdPartial
  case tooLong => exact h.receiveCharacter.abandonFrame
  case completes => exact h.receiveCharacter.completeFrame

theorem State.Alike.characterEvent (h : s.Alike t) {k : CharacterClass} {b : Byte} {mark fe : Bool} :
    s.Alike (characterEvent l k b mark fe t) := by
  unfold Machine.characterEvent
  split
  · exact h.takeCharacter
  · exact h

theorem State.Alike.deliverLoop (h : s.Alike t) : s.Alike (deliverLoop l t) := by
  unfold Machine.deliverLoop
  split
  · exact h
  · split
    · exact h
    · exact h.takeCharacter

theorem State.Alike.testCharacterLeft (h : s.Alike t) : s.Alike (testCharacterLeft l t) := h.deliverLoop.onLine

theorem State.Alike.testFrameLeft (h : s.Alike t) : s.Alike (testFrameLeft l t) :=
  h.deliverLoop.onLine.countLine fun _ => .countSent

theorem State.Alike.completeShift (h : s.Alike t) : s.Alike (completeShift l t) := by
  unfold Machine.completeShift
  split
  · split
    · exact h.onExchange
    · exact h.exchangeFrameLeft
  · split
    · exact h.testCharacterLeft
    · exact h.testFrameLeft
  · exact h

theorem takeStuck_keeps (l : LineId) (s : State) : s.Keeps (takeStuck l s) := by
  have raised : s.Alike (raiseStuck l s) :=
    (State.Alike.refl.onLine (hc := fun _ hc => hc.countStuck)).raiseLineNotice
  unfold takeStuck
  dsimp only
  split
  · unfold stuckInMonitor
    split
    · exact raised.keeps
    · exact raised.abandonFrame.keeps
  · exact (raised.keeps.trans (cutOff_keeps l _)).then State.Alike.refl.endScan

/-! ### The scheduler -/

theorem State.Alike.takeRollCall (h : s.Alike t) {sc : Scan} {a : Nat} : s.Alike (takeRollCall l sc a t) :=
  h.onLine.startExchange

theorem State.Alike.takeRecord (h : s.Alike t) {r : CommandRecord} : s.Alike (takeRecord l r t) := by
  unfold Machine.takeRecord
  dsimp only
  split
  · exact h.onLine.startExchange
  · split
    · exact h.onLine
    · exact h.onLine.startExchange

theorem State.Alike.takePoll (h : s.Alike t) {n : Nat} : s.Alike (takePoll l n t) := by
  unfold Machine.takePoll
  split
  · exact h
  next e he => exact (h.grant.setStation (e := e) he).onLine.startExchange

theorem State.Alike.takeProbe (h : s.Alike t) {n : Nat} : s.Alike (takeProbe l n t) := by
  unfold Machine.takeProbe
  split
  · exact h
  next e he =>
    refine (h.grant.setStation (e := e) he ?_).onLine.startExchange
    exact ⟨⟨rfl, rfl, rfl, fun ⟨h1, h2, h3, h4, h5, _, h⟩ => ⟨h1, h2, h3, h4, h5, bump_le _, h⟩⟩, rfl⟩

theorem State.Alike.chooseWork (h : s.Alike t) : s.Alike (chooseWork l t) := by
  unfold Machine.chooseWork
  split
  · split
    · exact h
    · exact h.takeRecord
  · split
    · split
      · exact h
      · exact h.takePoll
    · split
      · split
        · exact h
        · exact h.takeProbe
      · exact h

theorem State.Alike.choose (h : s.Alike t) : s.Alike (choose l t) := by
  unfold Machine.choose
  split
  · exact h.chooseWork
  · split
    · exact h.endScan.chooseWork
    · split
      · exact h.takeRollCall
      · exact h.onLine.chooseWork

/-! ### Notices -/

theorem State.Alike.drainOne (h : s.Alike t) : s.Alike (drainOne t) := by
  unfold Machine.drainOne
  split
  · exact h.enqueue.onLine
  · split
    · exact h.enqueue.onLine
    · split
      · exact h
      · unfold Machine.drainStation
        split
        · exact h
        next e he =>
          refine h.enqueue.setStation (e := e) he ?_
          exact ⟨⟨rfl, rfl, rfl, fun ⟨h1, h2, h3, h4, h5, h6, h7, h8, _⟩ =>
            ⟨h1, h2, h3, h4, h5, h6, h7, h8, Nat.zero_le _⟩⟩, rfl⟩

/-! ### Requests -/

/-- R168: what a request of any row keeps is what its owner's answer keeps. -/
theorem takeRequest_keeps {code : Nat} {inClosed : Bool} {apply : List Byte → State → Applied}
    (ha : ∀ body u, State.Keeps u (apply body u).state) (s : State) : s.Keeps (takeRequest code inClosed apply s) := by
  unfold takeRequest
  split
  · exact .refl
  next r rest _ =>
    have taken : s.Alike (s.onLink fun k => { k with intake := rest }) := State.Alike.refl.onLink
    split
    · dsimp only
      split
      · exact taken.respond.keeps
      · split
        · exact taken.respond.keeps
        · split
          · exact (taken.keeps.trans (ha _ _)).then State.Alike.refl.onLink
          · exact (taken.keeps.trans (ha _ _)).then State.Alike.refl.respond
    · exact .refl

theorem withLine_keeps {body : List Byte} {s : State} {f : LineId → Applied} (hf : ∀ l, s.Keeps (f l).state) :
    s.Keeps (withLine body s f).state := by
  unfold withLine
  split
  · exact .refl
  · exact hf _

theorem withStation_keeps {body : List Byte} {s : State} {f : Nat → Station → Applied}
    (hf : ∀ n e, s.station n = some e → s.Keeps (f n e).state) : s.Keeps (withStation body s f).state := by
  unfold withStation
  dsimp only
  split
  · exact .refl
  · split
    · exact .refl
    next e he => exact hf _ e he

theorem afterShift_keeps {ending : LineEnding} {now : State → State} (hn : ∀ u : State, u.Keeps (now u)) (l : LineId)
    (s : State) : s.Keeps (afterShift l ending now s).state := by
  unfold afterShift
  split
  · dsimp only
    exact State.Alike.refl.onLine.keeps
  · exact hn s

/-! ### Station requests -/

/-- R4: what `addressTaken` excludes. -/
theorem claim_of_addressTaken_eq_false {p : DefineParams} {m : Nat} {e : Station} (h : addressTaken p s = false)
    (he : s.station m = some e) (hl : p.home = l ∨ p.alternate = some l) (hc : e.home = l ∨ e.alternate = some l) :
    e.address ≠ p.address := by
  intro ha
  have claimed : s.addressClaimed l p.address = true := (addressClaimed_iff s l p.address).2 ⟨m, e, he, ha, hc⟩
  rw [addressTaken, Bool.or_eq_false_iff] at h
  obtain ⟨hh, ht⟩ := h
  rcases hl with rfl | hl
  · rw [claimed] at hh
    cases hh
  · rw [hl] at ht
    dsimp only at ht
    rw [claimed] at ht
    cases ht

theorem newStation_inRange (p : DefineParams) : (newStation p).InRange :=
  Station.inRange_of_zero rfl (Nat.zero_le _) (Nat.zero_le _) (Nat.zero_le _)

/-- R12: the entry that a definition makes, before it enters PROBING or DISABLED, keeps the invariants where the
definition is not refused ADDRESS_IN_USE. -/
theorem setNewStation_keeps {p : DefineParams} (hs : s.station p.station = none) (ht : addressTaken p s = false) :
    s.Keeps (s.setStation p.station (some (newStation p))) := by
  by_cases hp : p.station < 48
  swap
  · rw [State.setStation, dif_neg hp]
    exact .refl
  have same := State.station_setStation_same s p.station (some (newStation p)) hp
  have other (m) (hm : m ≠ p.station) := State.station_setStation_ne s (some (newStation p)) hm
  refine ⟨fun h => ?_, fun h => ?_, fun h => ?_⟩
  · rw [State.probeListsHold_iff] at h ⊢
    intro l
    rw [State.setStation_line]
    refine ⟨(h l).1, fun m => ((h l).2 m).trans ?_⟩
    by_cases hm : m = p.station
    · subst hm
      rw [hs, same]
      simp [newStation, Station.listedOn]
    · rw [other m hm]
  · intro l m k e f he hf hel hfl ha
    by_cases hm : m = p.station <;> by_cases hk : k = p.station
    · exact hm.trans hk.symm
    · subst hm
      cases same.symm.trans he
      exact absurd ha.symm (claim_of_addressTaken_eq_false ht ((other k hk).symm.trans hf) hel hfl)
    · subst hk
      cases same.symm.trans hf
      exact absurd ha (claim_of_addressTaken_eq_false ht ((other m hm).symm.trans he) hfl hel)
    · exact h l m k e f ((other m hm).symm.trans he) ((other k hk).symm.trans hf) hel hfl ha
  · rw [State.countersInRange_iff] at h ⊢
    obtain ⟨hl, hk, hr⟩ := h
    refine ⟨fun l => State.setStation_line s .. ▸ hl l, State.setStation_link s .. ▸ hk, fun m e he => ?_⟩
    by_cases hm : m = p.station
    · subst hm
      cases same.symm.trans he
      exact newStation_inRange p
    · exact hr m e ((other m hm).symm.trans he)

theorem applyDefineStation_keeps (body : List Byte) (s : State) : s.Keeps (applyDefineStation body s).state := by
  unfold applyDefineStation
  split
  · exact .refl
  next p _ =>
    split
    · exact .refl
    next hs =>
      split
      · exact .refl
      next ht =>
        have defined := setNewStation_keeps (by simpa using hs) (by simpa using ht)
        refine State.Keeps.then ?_ State.Alike.refl.raiseNotice
        split
        · exact defined.trans (enterProbing_keeps ..)
        · exact defined.trans (enterDisabled_keeps ..)

theorem applyModifyStation_keeps (body : List Byte) (s : State) : s.Keeps (applyModifyStation body s).state := by
  unfold applyModifyStation
  split
  · exact .refl
  · refine withStation_keeps fun n e he => ?_
    have modified (f : Station) : f.Alike { f with retryLimit := u8At body 4, offlineThreshold := u8At body 5 } :=
      ⟨⟨rfl, rfl, rfl, id⟩, rfl⟩
    exact (State.Alike.refl.setStation he ((e.withPeriod_alike _ _).trans (modified _))).keeps

theorem removeStation_keeps (n : Nat) (s : State) : s.Keeps (removeStation n s) := by
  have completed : s.Alike (completeAllOf n .removed s) := State.Alike.refl.completeAllOf
  rw [removeStation, leaveProbeLists_eq, probeListed_setStation]
  exact completed.keeps.trans (State.AlikeBut.refl n _).remove

theorem applyRemoveStation_keeps (body : List Byte) (s : State) : s.Keeps (applyRemoveStation body s).state := by
  refine withStation_keeps fun n e _ => ?_
  split
  · exact .refl
  · exact removeStation_keeps n s

/-- R15: a DISABLED station stands in no probe list, so that its current line may change. -/
theorem enableStation_keeps {n : Nat} {e : Station} {s : State} (he : s.station n = some e) (hd : e.state = .disabled) :
    s.Keeps (enableStation n s) := by
  have homed : e.Alike { e with current := e.home } := ⟨⟨rfl, rfl, rfl, id⟩, by simp [Station.listedOn, hd]⟩
  unfold enableStation
  rw [State.onStation_of_station he]
  exact ((State.Alike.refl.setStation he homed).keeps.trans (enterProbing_keeps n _)).then State.Alike.refl.raiseNotice

theorem applyEnableStation_keeps (body : List Byte) (s : State) : s.Keeps (applyEnableStation body s).state := by
  refine withStation_keeps fun n e he => ?_
  split
  next hd => exact enableStation_keeps he hd
  next => exact (State.Alike.refl.setStation he).keeps

theorem applyDisableStation_keeps (body : List Byte) (s : State) : s.Keeps (applyDisableStation body s).state := by
  refine withStation_keeps fun n e he => ?_
  split
  · exact .refl
  · split
    · exact (State.Alike.refl.setStation he).keeps
    · exact disableTakesEffect_keeps n s

theorem applyReadStation_keeps (body : List Byte) (s : State) : s.Keeps (applyReadStation body s).state := by
  unfold applyReadStation
  dsimp only
  split
  · exact .refl
  · split <;> exact .refl

theorem Station.cleared_alike (e : Station) (flag : Bool) :
    e.Alike { e with sticky := 0, lastFailure := none, counters := if flag then .zero else e.counters } := by
  refine ⟨⟨rfl, rfl, rfl, fun h => ?_⟩, rfl⟩
  cases flag
  case false => exact h
  case true =>
    obtain ⟨-, -, -, -, -, -, h7, h8, h9⟩ := h
    exact Station.inRange_of_zero rfl h7 h8 h9

theorem applyClearStationErrors_keeps (body : List Byte) (s : State) :
    s.Keeps (applyClearStationErrors body s).state := by
  refine withStation_keeps fun n e he => ?_
  exact (State.Alike.refl.setStation he (e.cleared_alike (flagAt body 2))).keeps

theorem applyRequestPoll_keeps (body : List Byte) (s : State) : s.Keeps (applyRequestPoll body s).state := by
  refine withStation_keeps fun n e he => ?_
  split
  · exact (State.Alike.refl.setStation he).keeps
  · exact (State.Alike.refl.setStation he).keeps
  · exact .refl
  · exact .refl
  · exact .refl

end

end Sys2Proof.Machine
end

section
/-! The rows of the table, and the step: every step keeps the probe lists, the addresses and the counters. -/

namespace Sys2Proof.Machine

section
variable {s t : State}

/-! ### Requests of commands, lines, link and outputs -/

theorem State.Alike.acceptRecord (h : s.Alike t) {tag : Half} {n : Option Nat} {l : LineId} {d : List Byte} :
    s.Alike (acceptRecord tag n l d t) := h.grant.onPool

theorem submitForStation_keeps (n : Nat) (e : Station) (body : List Byte) (s : State) :
    s.Keeps (submitForStation n e body s).state := by
  unfold submitForStation
  split
  · exact .refl
  · split
    · exact .refl
    · split
      · exact .refl
      · split
        · exact .refl
        · exact State.Alike.refl.acceptRecord.keeps

theorem applySubmitCommand_keeps (body : List Byte) (s : State) : s.Keeps (applySubmitCommand body s).state := by
  unfold applySubmitCommand
  dsimp only
  split
  · exact .refl
  · split
    · exact .refl
    · split
      · exact .refl
      · exact .refl
      · exact submitForStation_keeps ..
      · exact submitForStation_keeps ..
      · exact submitForStation_keeps ..

theorem applySubmitBroadcast_keeps (body : List Byte) (s : State) : s.Keeps (applySubmitBroadcast body s).state := by
  unfold applySubmitBroadcast
  split
  · exact .refl
  · split
    · exact .refl
    · split
      · exact .refl
      · split
        · exact .refl
        · split
          · exact .refl
          · exact State.Alike.refl.acceptRecord.keeps

theorem applyCancelCommand_keeps (body : List Byte) (s : State) : s.Keeps (applyCancelCommand body s).state := by
  unfold applyCancelCommand
  split
  · exact .refl
  · split
    · exact State.Alike.refl.completeRecord.keeps
    · exact State.Alike.refl.onRecord.keeps

theorem applySetLineMode_keeps (body : List Byte) (s : State) : s.Keeps (applySetLineMode body s).state := by
  refine withLine_keeps fun l => ?_
  split
  · exact .refl
  · split
    · exact .refl
    · exact afterShift_keeps (changeMode_keeps l _) l s

theorem applyConfigureLine_keeps (body : List Byte) (s : State) : s.Keeps (applyConfigureLine body s).state := by
  refine withLine_keeps fun l => ?_
  split
  · exact .refl
  · split
    · exact .refl
    · dsimp only [answer]
      exact State.Alike.refl.onLine.keeps

theorem applyResetLine_keeps (body : List Byte) (s : State) : s.Keeps (applyResetLine body s).state :=
  withLine_keeps fun l => afterShift_keeps (resetLineNow_keeps l) l s

theorem startScan_keeps (l : LineId) (first last : Nat) (s : State) : s.Keeps (startScan l first last s) :=
  State.Alike.refl.grant.onLine.keeps

theorem applyStartScan_keeps (body : List Byte) (s : State) : s.Keeps (applyStartScan body s).state := by
  refine withLine_keeps fun l => ?_
  split
  · exact .refl
  · split
    · exact .refl
    · split
      · exact .refl
      · split
        · exact .refl
        · exact startScan_keeps ..

theorem applyCancelScan_keeps (body : List Byte) (s : State) : s.Keeps (applyCancelScan body s).state := by
  refine withLine_keeps fun l => ?_
  split
  · exact .refl
  · exact State.Alike.refl.endScan.keeps

theorem startTest_keeps (l : LineId) (count : Nat) (s : State) : s.Keeps (startTest l count s) :=
  State.Alike.refl.grant.onLine.raiseLineNotice.keeps

theorem applyStartLineTest_keeps (body : List Byte) (s : State) : s.Keeps (applyStartLineTest body s).state := by
  refine withLine_keeps fun l => ?_
  split
  · exact .refl
  · split
    · exact .refl
    · split
      · exact .refl
      · split
        · exact .refl
        · exact startTest_keeps ..

theorem applyReadLineStatus_keeps (body : List Byte) (s : State) : s.Keeps (applyReadLineStatus body s).state := by
  refine withLine_keeps fun l => ?_
  split
  · dsimp only
    split
    · exact State.Alike.refl.of_eq.keeps
    · exact .refl
  · exact .refl
  · exact .refl

theorem applyClearLineCounters_keeps (body : List Byte) (s : State) : s.Keeps (applyClearLineCounters body s).state :=
  withLine_keeps fun _ => (State.Alike.refl.countLine fun _ _ => LineCounters.zero_inRange).keeps

theorem openSession_keeps (window timeout : Nat) (discard : Bool) (s : State) :
    s.Keeps (openSession window timeout discard s) := by
  have discarded : s.Alike (if discard then discardEntries s else s) := by
    split
    · exact State.Alike.refl.onQueue
    · exact .refl
  exact discarded.of_eq.keeps

theorem applyOpenSession_keeps (body : List Byte) (s : State) : s.Keeps (applyOpenSession body s).state := by
  unfold applyOpenSession
  dsimp only
  split
  · exact openSession_keeps ..
  · exact .refl

theorem applyReadLinkStatus_keeps (body : List Byte) (s : State) : s.Keeps (applyReadLinkStatus body s).state := by
  unfold applyReadLinkStatus
  dsimp only
  split
  · exact (State.Alike.refl.countLink fun _ _ => LinkCounters.zero_inRange).keeps
  · exact .refl

theorem applyMask_keeps (value : Bool) (body : List Byte) (s : State) : s.Keeps (applyMask value body s).state := by
  unfold applyMask
  split
  · exact .refl
  · exact State.Alike.refl.of_eq.keeps

theorem applyAssignOutput_keeps (body : List Byte) (s : State) : s.Keeps (applyAssignOutput body s).state := by
  unfold applyAssignOutput
  split
  · exact .refl
  · split
    · exact .refl
    · exact State.Alike.refl.of_eq.keeps

/-! ### Restart and power-on -/

/-- The entries by their numbers. -/
theorem zip_range_stations (s : State) :
    (List.range Config.stations).zip s.stations.toList = (List.range 48).map fun n => (n, s.station n) := by
  refine List.ext_getElem (by simp [Config.stations]) fun i hi _ => ?_
  have hi : i < 48 := by simpa [Config.stations] using hi
  simp [State.station, hi]

/-- R20: the probe list that a restarted table gives a line. -/
theorem probingOn_eq (s : State) (l : LineId) :
    probingOn s.stations l
      = (List.range 48).filter fun n => (s.station n).any fun e => e.state == .probing && e.current == l := by
  rw [probingOn, zip_range_stations, List.filterMap_map, ← List.filterMap_eq_filter]
  congr 1
  funext n
  cases he : s.station n with
  | none => simp [he, Option.guard]
  | some e => by_cases h : e.state = .probing ∧ e.current = l <;> simp [he, h, Option.guard]

theorem takeRestart_station (s : State) (n : Nat) :
    (takeRestart s).station n = (s.station n).map Station.restarted := by
  unfold State.station
  split <;> simp [takeRestart]

theorem takeRestart_line (s : State) (l : LineId) :
    (takeRestart s).line l = (s.line l).restarted (probingOn (takeRestart s).stations l) := by cases l <;> rfl

theorem Station.restarted_state (e : Station) :
    e.restarted.state = if e.state = .disabled ∨ e.pendingDisable = true then .disabled else .probing := by
  by_cases h : e.state = .disabled ∨ e.pendingDisable = true <;> simp_all [Station.restarted]

theorem takeRestart_keeps (s : State) : s.Keeps (takeRestart s) := by
  have entry (n f) (hf : (takeRestart s).station n = some f) : ∃ e, s.station n = some e ∧ e.restarted = f := by
    rwa [takeRestart_station, Option.map_eq_some_iff] at hf
  refine ⟨fun _ => ?_, fun h => h.of_revised fun n f hf => ?_, fun _ => ?_⟩
  · rw [State.probeListsHold_iff]
    intro l
    rw [takeRestart_line]
    change (probingOn (takeRestart s).stations l).Nodup ∧ ∀ n, n ∈ probingOn (takeRestart s).stations l ↔ _
    rw [probingOn_eq]
    refine ⟨List.nodup_range.filter _, fun n => ?_⟩
    rw [List.mem_filter, List.mem_range]
    cases hf : (takeRestart s).station n with
    | none => simp
    | some f =>
      obtain ⟨e, he, rfl⟩ := entry n f hf
      have hn := State.station_lt he
      have hs : e.restarted.state ≠ .offline := by
        rw [Station.restarted_state]
        split <;> simp
      simp [Station.listedOn_eq_some, hn, hs]
  · obtain ⟨e, he, rfl⟩ := entry n f hf
    exact ⟨e, he, e.restarted_revised⟩
  · rw [State.countersInRange_iff]
    refine ⟨fun l => ?_, LinkCounters.zero_inRange, fun n f hf => ?_⟩
    · rw [takeRestart_line]
      exact LineCounters.zero_inRange
    · obtain ⟨e, -, rfl⟩ := entry n f hf
      exact Station.inRange_of_zero rfl (Nat.zero_le _) (Nat.zero_le _) (Nat.zero_le _)

theorem powerOnState_station (s : State) (n : Nat) : (powerOnState s).station n = none := by
  unfold State.station
  split <;> simp [powerOnState, State.reset]

theorem powerOnState_line (s : State) (l : LineId) :
    (powerOnState s).line l = { Line.powerOn with rxMark := (s.line l).rxMark } := by cases l <;> rfl

/-- R40: with no station defined the probe lists are empty. -/
theorem powerOnState_keeps (s : State) : s.Keeps (powerOnState s) := by
  refine ⟨fun _ => ?_, fun _ l n m e f he => ?_, fun _ => ?_⟩
  · rw [State.probeListsHold_iff]
    intro l
    simp [powerOnState_line, powerOnState_station, Line.powerOn]
  · rw [powerOnState_station] at he
    cases he
  · rw [State.countersInRange_iff]
    refine ⟨fun l => ?_, LinkCounters.zero_inRange, fun n e he => ?_⟩
    · rw [powerOnState_line]
      exact LineCounters.zero_inRange
    · rw [powerOnState_station] at he
      cases he

/-! ### The rows -/

theorem hostFrameEnd_keeps {t : State} (h : execHostFrameEnd s = .next t) : s.Keeps t := by
  obtain rfl := Host.Outcome.next.inj h
  have ended : s.Alike (endHostFrame s) := State.Alike.refl.onLink
  split
  · exact .refl
  · split
    · exact takeRestart_keeps s
    · exact ended.restartAckTimer.startHostFrame.keeps
    · exact ended.startHostFrame.keeps
    · exact ended.startHostFrame.keeps

theorem driverRelease_keeps {l : LineId} (h : execDriverRelease l s = .next t) : s.Keeps t := by
  obtain rfl := Host.Outcome.next.inj h
  have released (u : State) : u.Alike (releaseDriver l u) := State.Alike.refl.onLine
  have done : s.Alike (releaseDriver l (completeShift l s)) := State.Alike.refl.completeShift.trans (released _)
  split
  · exact .refl
  · exact (released s).keeps
  · exact (done.keeps.trans (changeMode_keeps l _ _)).then State.Alike.refl.answerHeld
  · exact (done.keeps.trans (resetLineNow_keeps l _)).then State.Alike.refl.answerHeld

theorem characterSent_alike {l : LineId} (h : execCharacterSent l s = .next t) : s.Alike t := by
  obtain rfl := Host.Outcome.next.inj h
  split
  · exact .refl
  · split
    · split
      · exact State.Alike.refl.onExchange
      · exact .refl
    · split
      · exact State.Alike.refl.testCharacterLeft
      · exact .refl
    · exact .refl

theorem frameSent_alike {l : LineId} (h : execFrameSent l s = .next t) : s.Alike t := by
  obtain rfl := Host.Outcome.next.inj h
  split
  · exact .refl
  · split
    · split
      · exact State.Alike.refl.exchangeFrameLeft
      · exact .refl
    · split
      · exact State.Alike.refl.testFrameLeft.testAwaits
      · exact .refl
    · exact .refl

theorem guardEnd_alike {l : LineId} (h : execGuardEnd l s = .next t) : s.Alike t := by
  obtain rfl := Host.Outcome.next.inj h
  split
  · exact .refl
  · unfold endGuard
    dsimp only
    split
    · exact State.Alike.refl.onLine.enterGap
    · exact State.Alike.refl.onLine.onLine

theorem replyStartTimeout_alike {l : LineId} (h : execReplyStartTimeout l s = .next t) : s.Alike t := by
  obtain rfl := Host.Outcome.next.inj h
  split
  · exact .refl
  · split
    · exact State.Alike.refl.endRollCall
    · exact State.Alike.refl.failAttempt

theorem gapExpiry_keeps {l : LineId} (h : execGapExpiry l s = .next t) : s.Keeps t := by
  obtain rfl := Host.Outcome.next.inj h
  split
  · exact .refl
  · unfold expireGap
    split
    · exact endExchange_keeps l s
    · split
      · exact State.Alike.refl.completeCarried.keeps.trans (endExchange_keeps l _)
      · exact State.Alike.refl.beginAttempt.keeps

/-- What a guarded row keeps is what its event keeps. -/
theorem State.Keeps.ite {p : Prop} [Decidable p] {u : State} (h : p → s.Keeps u) : s.Keeps (if p then u else s) := by
  split
  next hp => exact h hp
  next => exact .refl

/-- Every row of the table keeps the invariants. -/
theorem exec_keeps (i : Instr) (h : exec i s = .next t) : s.Keeps t := by
  have hostByte (u : State) (fe : Bool) : u.Alike (receiveHostByte fe u) := State.Alike.refl.onLink
  have seek (u : State) : u.Alike (seekHost u) := State.Alike.refl.onLink
  cases i
  case hostFrameEnd => exact hostFrameEnd_keeps h
  case driverRelease => exact driverRelease_keeps h
  case characterSent => exact (characterSent_alike h).keeps
  case frameSent => exact (frameSent_alike h).keeps
  case guardEnd => exact (guardEnd_alike h).keeps
  case replyStartTimeout => exact (replyStartTimeout_alike h).keeps
  case gapExpiry => exact gapExpiry_keeps h
  all_goals obtain rfl := Host.Outcome.next.inj h
  case powerOn => exact powerOnState_keeps s
  case powerOnResetEnd => exact .ite fun _ => State.Alike.refl.of_eq.keeps
  case byteDiscarded => exact .ite fun _ => ((hostByte s _).countLink fun _ => .countDiscarded).keeps
  case hostFrameDiscarded => exact .ite fun _ => (((hostByte s _).trans (seek _)).countLink fun _ => .countBad).keeps
  case hostFrameGapTimeout => exact .ite fun _ => ((seek s).countLink fun _ => .countTimeout).keeps
  case requestArrival => exact .ite fun _ => (seek s).returnFromStall.arrive.keeps
  case ack => exact .ite fun _ => (seek s).returnFromStall.takeAck.keeps
  case identify => exact takeRequest_keeps (fun _ _ => .refl) s
  case openSession => exact takeRequest_keeps applyOpenSession_keeps s
  case closeSession => exact takeRequest_keeps (fun _ _ => State.Alike.refl.of_eq.keeps) s
  case restart => exact takeRequest_keeps (fun _ _ => State.Alike.refl.of_eq.keeps) s
  case restartTaken => exact .ite fun _ => takeRestart_keeps s
  case readLinkStatus => exact takeRequest_keeps applyReadLinkStatus_keeps s
  case readQueueStatus => exact takeRequest_keeps (fun _ _ => .refl) s
  case defineStation => exact takeRequest_keeps applyDefineStation_keeps s
  case modifyStation => exact takeRequest_keeps applyModifyStation_keeps s
  case removeStation => exact takeRequest_keeps applyRemoveStation_keeps s
  case enableStation => exact takeRequest_keeps applyEnableStation_keeps s
  case disableStation => exact takeRequest_keeps applyDisableStation_keeps s
  case readStation => exact takeRequest_keeps applyReadStation_keeps s
  case clearStationErrors => exact takeRequest_keeps applyClearStationErrors_keeps s
  case requestPoll => exact takeRequest_keeps applyRequestPoll_keeps s
  case submitCommand => exact takeRequest_keeps applySubmitCommand_keeps s
  case submitBroadcast => exact takeRequest_keeps applySubmitBroadcast_keeps s
  case cancelCommand => exact takeRequest_keeps applyCancelCommand_keeps s
  case setLineMode => exact takeRequest_keeps applySetLineMode_keeps s
  case configureLine => exact takeRequest_keeps applyConfigureLine_keeps s
  case resetLine => exact takeRequest_keeps applyResetLine_keeps s
  case startScan => exact takeRequest_keeps applyStartScan_keeps s
  case cancelScan => exact takeRequest_keeps applyCancelScan_keeps s
  case startLineTest => exact takeRequest_keeps applyStartLineTest_keeps s
  case readLineStatus => exact takeRequest_keeps applyReadLineStatus_keeps s
  case clearLineCounters => exact takeRequest_keeps applyClearLineCounters_keeps s
  case setOutputs => exact takeRequest_keeps (applyMask_keeps true) s
  case clearOutputs => exact takeRequest_keeps (applyMask_keeps false) s
  case assignOutput => exact takeRequest_keeps applyAssignOutput_keeps s
  case ctsFall =>
    have fallen : s.Alike (s.onLink fun k => { k with ctsLow := true }) := State.Alike.refl.onLink
    exact fallen.startHostFrame.keeps
  case ctsRise => exact State.Alike.refl.onLink.keeps
  case hostTransmitStart => exact State.Alike.refl.startHostFrame.keeps
  case ackTimerExpiry => exact .ite fun _ => State.Alike.refl.expireAckTimer.keeps
  case helloTimerExpiry => exact .ite fun _ => State.Alike.refl.expireHelloTimer.keeps
  case schedulerChoice => exact .ite fun _ => State.Alike.refl.choose.keeps
  case addressCharacterReceived => exact State.Alike.refl.characterEvent.keeps
  case lengthAbandon => exact State.Alike.refl.characterEvent.keeps
  case strayCharacter => exact State.Alike.refl.characterEvent.keeps
  case frameReceived => exact State.Alike.refl.characterEvent.keeps
  case frameCharacterReceived => exact State.Alike.refl.characterEvent.keeps
  case intercharacterTimeout =>
    split
    · exact .refl
    · exact State.Alike.refl.abandonFrame.keeps
  case pollTimerExpiry => exact (State.Alike.refl.onStation Station.expirePoll_alike).keeps
  case holdoffTimerExpiry => exact State.Alike.refl.onStation.keeps
  case probeTimerExpiry => exact State.Alike.refl.onStation.keeps
  case stuckRaised => exact .ite fun _ => takeStuck_keeps _ s
  case stuckCleared =>
    refine .ite fun _ => State.Alike.keeps ?_
    exact State.Alike.refl.onLine.raiseLineNotice
  case testAwaitTimeout =>
    split
    · exact .refl
    · exact State.Alike.refl.judgeTest.keeps
  case testGapExpiry =>
    split
    · exact .refl
    · exact State.Alike.refl.onLine.keeps
  case noticeDrain => exact .ite fun _ => State.Alike.refl.drainOne.keeps
  case startBitAccepted => exact .ite fun _ => State.Alike.refl.onLine.keeps
  case glitch => exact .ite fun _ => (State.Alike.refl.countLine fun _ => .countGlitch).keeps
  case receiveInputLevelChange => exact State.Alike.refl.onLine.keeps
  case hostByteReceived => exact .ite fun _ => State.Alike.refl.of_eq.keeps
  case hostStartBitAccepted =>
    split
    · exact .refl
    · exact State.Alike.refl.of_eq.keeps
  case unknownRequestCode =>
    split
    · exact .refl
    · exact .ite fun _ => State.Alike.refl.of_eq.keeps

/-- A millisecond that passes leaves the states alike. -/
theorem tick_alike (s : State) : s.Alike (tick s) := by
  refine ⟨fun n => ?_, fun l => by cases l <;> rfl, fun l => by cases l <;> exact id, id⟩
  have : (tick s).station n = (s.station n).map Station.tick := by
    unfold State.station
    split <;> simp [tick]
  rw [this]
  cases s.station n with
  | none => exact .none
  | some e => exact .some e.tick_alike

/-- Every step keeps the probe lists, the addresses and the counters, each from itself alone. -/
theorem step_keeps (h : step s = .next t) : s.Keeps t := by
  unfold step at h
  split at h
  · unfold idle at h
    split at h
    · exact exec_keeps _ h
    · obtain rfl := Host.Outcome.next.inj h
      exact (tick_alike s).keeps
  next rest _ =>
    have taken : s.Alike { s with pending := rest } := State.Alike.refl.of_eq
    exact taken.keeps.trans (exec_keeps _ h)

end

/-- Settles O58: what every step keeps of the station table and the probe lists. -/
theorem everyStepKeepsTheProbeLists : Obligations.EveryStepKeepsTheProbeLists := fun _ _ h =>
  have kept := step_keeps h
  ⟨kept.probeLists, kept.addresses⟩

/-- Settles O59: what every step keeps of the counters. -/
theorem everyStepKeepsCountersInRange : Obligations.EveryStepKeepsCountersInRange := fun _ _ hc h =>
  (step_keeps h).counters hc

end Sys2Proof.Machine
end

section
/-! The station requests (R12 to R19): what each comes to. -/

namespace Sys2Proof.Machine

/-! ### What taking a request comes to -/

/-- R168: what a request handed to its owner comes to, by the owner's answer. -/
theorem takeRequest_of_apply {s t : State} {r : Request} {rest : List Request} {code : Nat} {st : Status}
    {d : List Byte} {apply : List Byte → State → Applied} (h : Handed s r rest) (hc : requestCode r.body = some code)
    (hl : lengthFits r.body = true) (h4 : code ≠ 4) (ha : apply r.body (headTaken rest s) = ⟨t, some ⟨st, d⟩⟩) :
    takeRequest code false apply s = answered r st d t := by
  rw [takeRequest_handed h.1 hc hl (.inl h.2) (by rw [ha]) h4, ha]

section
variable {body : List Byte} {s : State} {f : Nat → Station → Applied} {n : Byte} {r : Request} {rest : List Request}
  {g : Station → State}

theorem withStation_of_high (hn : u8At body 1 = n.toNat) (h : 47 < n.toNat) :
    withStation body s f = refuse .badParameter s := by
  simp only [withStation, hn]
  exact if_pos h

theorem withStation_of_none (hn : u8At body 1 = n.toNat) (h : ¬47 < n.toNat) (he : s.station n.toNat = none) :
    withStation body s f = refuse .noStation s := by
  simp only [withStation, hn, he]
  exact if_neg h

theorem withStation_of_some {e : Station} (hn : u8At body 1 = n.toNat) (h : ¬47 < n.toNat)
    (he : s.station n.toNat = some e) : withStation body s f = f n.toNat e := by
  simp only [withStation, hn, he]
  exact if_neg h

theorem stationRequest_of_high (h : 47 < n.toNat) : stationRequest r rest n s g = refusedWith r rest .badParameter s :=
  if_pos h

theorem stationRequest_of_none (h : ¬47 < n.toNat) (he : s.station n.toNat = none) :
    stationRequest r rest n s g = refusedWith r rest .noStation s := by
  rw [stationRequest, if_neg h, he]

theorem stationRequest_of_some {e : Station} (h : ¬47 < n.toNat) (he : s.station n.toNat = some e) :
    stationRequest r rest n s g = g e := by
  rw [stationRequest, if_neg h, he]

/-- R13 to R16, R19: a request that names a station, by the byte after its code, is refused, or answered as its owner
answers for the entry. -/
theorem takeRequest_of_withStation {code : Nat} {apply : List Byte → State → Applied} (h : Handed s r rest)
    (hc : requestCode r.body = some code) (hl : lengthFits r.body = true) (h4 : code ≠ 4)
    (hn : u8At r.body 1 = n.toNat) (ha : apply r.body (headTaken rest s) = withStation r.body (headTaken rest s) f)
    (hf : ∀ e, s.station n.toNat = some e →
      ∃ t status, f n.toNat e = ⟨t, some (.plain status)⟩ ∧ answered r status [] t = g e) :
    takeRequest code false apply s = stationRequest r rest n s g := by
  by_cases h47 : 47 < n.toNat
  · rw [stationRequest_of_high h47]
    exact takeRequest_of_apply h hc hl h4 (ha.trans (withStation_of_high hn h47))
  · cases he : s.station n.toNat with
    | none =>
      rw [stationRequest_of_none h47 he]
      exact takeRequest_of_apply h hc hl h4 (ha.trans (withStation_of_none hn h47 he))
    | some e =>
      obtain ⟨t, status, hfe, hg⟩ := hf e he
      rw [stationRequest_of_some h47 he, ← hg]
      exact takeRequest_of_apply h hc hl h4 ((ha.trans (withStation_of_some hn h47 he)).trans hfe)

end

/-! ### READ_STATION -/

theorem b8_toNat (n : Byte) : b8 n.toNat = n := by simp [b8]

/-- R182: remaining milliseconds, 0xFFFF when stopped. -/
theorem timerCode_eq (t : Option Nat) : timerCode t = t.getD 0xFFFF := by cases t <;> rfl

theorem failureCode_eq (k : Option FailureKind) : failureCode k = (k.map FailureKind.code).getD 0 := by cases k <;> rfl

theorem inFlightCode_eq (k : Option ExchangeKind) : inFlightCode k = (k.map ExchangeKind.code).getD 0 := by
  cases k <;> rfl

/-- R182: a word's two bytes, least significant first. -/
theorem le16_toNat (h : Half) : le16 h.toNat = [lowByte h, highByte h] := by
  have low : b8 h.toNat = lowByte h := rfl
  have high : b8 (h.toNat / 256) = highByte h := by
    apply BitVec.eq_of_toNat_eq
    simp [b8, highByte, Nat.shiftRight_eq_div_pow]
  rw [le16, low, high]

/-- Settles O20: the data of R186, by the layout of the entry. -/
theorem readStationReturnsTheEntry : Obligations.ReadStationReturnsTheEntry := by
  intro s r rest n h hb bit line timer entry blank
  have hc : requestCode r.body = some 0x15 := by rw [hb]; rfl
  have hl : lengthFits r.body = true := by rw [hb]; rfl
  have hn : u8At r.body 1 = n.toNat := by rw [hb]; rfl
  have hline (l : LineId) : b8 (lineCode l) = line l := by cases l <;> rfl
  have hline? (l : Option LineId) : b8 (lineCode? l) = (l.map line).getD 0xFF := by
    cases l with
    | none => rfl
    | some l => exact hline l
  have data (e : Station) : stationData n.toNat e (headTaken rest s) = entry e := by
    simp only [stationData, entry, timer, b8_toNat, hline, hline?, timerCode_eq, failureCode_eq, inFlightCode_eq,
      le16_toNat, stationCounterBytes, flagBit, headTaken_inFlightKind, List.append_assoc]
    rfl
  have empty : blankStationData n.toNat = blank := by
    rw [blankStationData, b8_toNat]
    rfl
  refine ⟨fun e => by simp [entry, timer, le16], congrArg Host.Outcome.next ?_⟩
  by_cases h47 : 47 < n.toNat
  · rw [if_pos h47]
    refine takeRequest_of_apply h hc hl (by decide) ?_
    simp only [applyReadStation, hn]
    exact if_pos h47
  · rw [if_neg h47]
    cases he : s.station n.toNat with
    | none =>
      refine takeRequest_of_apply h hc hl (by decide) ?_
      simp only [applyReadStation, hn, headTaken_station, he, empty]
      exact if_neg h47
    | some e =>
      refine takeRequest_of_apply h hc hl (by decide) ?_
      simp only [applyReadStation, hn, headTaken_station, he, data]
      exact if_neg h47

/-! ### MODIFY_STATION -/

/-- R13: the poll timer and due mark under a new period, part by part. -/
theorem withPeriod_eq (e : Station) (period : Nat) (inFlight : Bool) :
    e.withPeriod period inFlight =
      { e with
        pollPeriod := period
        pollDue := if period = 0 then false else e.pollDue
        pollTimer :=
          if period = 0 then none
          else (e.pollTimer.map fun t => if period < e.pollPeriod then period else t).or
            (if (e.state = .online ∨ e.state = .suspect) ∧ inFlight = false then some period else none) } := by
  unfold Station.withPeriod
  by_cases h0 : period = 0
  · simp [h0]
  · cases e.pollTimer with
    | none =>
      cases inFlight <;> by_cases hs : e.state = .online ∨ e.state = .suspect <;> simp [h0, hs]
    | some t =>
      by_cases hp : period < e.pollPeriod <;> simp [h0, hp]

/-- Settles O17. -/
theorem modifyStationWritesTheParameters : Obligations.ModifyStationWritesTheParameters := by
  intro s r rest n low high retry threshold h hb period inRange
  have hc : requestCode r.body = some 0x11 := by rw [hb]; rfl
  have hl : lengthFits r.body = true := by rw [hb]; rfl
  have hn : u8At r.body 1 = n.toNat := by rw [hb]; rfl
  have hp : u16At r.body 2 = period := by rw [hb]; rfl
  have hr : u8At r.body 4 = retry.toNat := by rw [hb]; rfl
  have ht : u8At r.body 5 = threshold.toNat := by rw [hb]; rfl
  have range : modifyInRange r.body = true ↔ inRange := by
    simp only [modifyInRange, hn, hp, hr, ht, pollPeriodInRange, retryLimitInRange, thresholdInRange, Bool.and_eq_true,
      Bool.or_eq_true, decide_eq_true_eq, Config.stations, inRange]
    omega
  refine congrArg Host.Outcome.next ?_
  by_cases hi : inRange
  · rw [if_neg (not_not.2 hi)]
    have ha : applyModifyStation r.body (headTaken rest s) = withStation r.body (headTaken rest s) _ :=
      if_neg (by simp [range.2 hi])
    refine takeRequest_of_withStation h hc hl (by decide) hn ha fun e he => ⟨_, .ok, rfl, ?_⟩
    simp only [hp, hr, ht, headTaken_inFlightKind, withPeriod_eq]
    cases e.pollTimer <;> simp
  · rw [if_pos hi]
    refine takeRequest_of_apply h hc hl (by decide) ?_
    simp only [applyModifyStation, Bool.eq_false_iff.2 (mt range.1 hi)]
    rfl

end Sys2Proof.Machine
end

section
/-! DEFINE_STATION (R12): its checks by the bytes of its body, and the entry it makes. -/

namespace Sys2Proof.Machine

/-! ### DEFINE_STATION -/

/-- R182: the line that a byte of 0 or 1 names. -/
def lineOfByte (b : Byte) : LineId := if b = 0 then .a else .b

theorem lineOf_of_le {b : Byte} (h : b.toNat ≤ 1) : lineOf b.toNat = some (lineOfByte b) := by
  have : b = 0 ∨ b = 1 := by bv_omega
  rcases this with rfl | rfl <;> rfl

theorem lineOf_of_lt {n : Nat} (h : 1 < n) : lineOf n = none := by
  unfold lineOf
  split
  · omega
  · omega
  · rfl

theorem lineOfByte_inj {a b : Byte} (ha : a.toNat ≤ 1) (hb : b.toNat ≤ 1) : lineOfByte a = lineOfByte b ↔ a = b := by
  have ca : a = 0 ∨ a = 1 := by bv_omega
  have cb : b = 0 ∨ b = 1 := by bv_omega
  rcases ca with rfl | rfl <;> rcases cb with rfl | rfl <;> decide

/-- R182: the alternate line of a byte: none for 0xFF. -/
def alternateOfByte (b : Byte) : Option LineId := if b = 0xFF then none else some (lineOfByte b)

theorem alternateOf_of_le {b : Byte} (h : b.toNat ≤ 1 ∨ b = 0xFF) : alternateOf b.toNat = some (alternateOfByte b) := by
  rcases h with h | rfl
  · have : b.toNat ≠ 0xFF := by omega
    have : b ≠ 255#8 := by bv_omega
    simp [alternateOf, alternateOfByte, lineOf_of_le h, *]
  · rfl

theorem alternateOf_of_lt {b : Byte} (h : ¬(b.toNat ≤ 1 ∨ b = 0xFF)) : alternateOf b.toNat = none := by
  have : b.toNat ≠ 0xFF := by bv_omega
  have : 1 < b.toNat := by bv_omega
  simp [alternateOf, lineOf_of_lt, *]

theorem toNat_eq_255 (b : Byte) : b.toNat = 0xFF ↔ b = 0xFF := by bv_omega

/-- R185: a field of one byte whose value 0xFF means DEFAULT. -/
theorem orDefault_byte (deflt : Nat) (b : Byte) :
    orDefault 0xFF deflt b.toNat = if b = 0xFF then deflt else b.toNat := by
  simp only [orDefault, toNat_eq_255]

/-- R185: a field of two bytes whose value 0xFFFF means DEFAULT. -/
theorem orDefault_word (deflt : Nat) (low high : Byte) :
    orDefault 0xFFFF deflt (low.toNat + 256 * high.toNat)
      = if low = 0xFF ∧ high = 0xFF then deflt else low.toNat + 256 * high.toNat := by
  have : low.toNat + 256 * high.toNat = 0xFFFF ↔ low = 0xFF ∧ high = 0xFF := by bv_omega
  simp only [orDefault, this]

section
variable (n address home alternate low high retry threshold enable : Byte)

/-- R12: the parameters that the bytes of a DEFINE_STATION body give. -/
def definition : DefineParams :=
  { station := n.toNat, address := address.toNat, home := lineOfByte home, alternate := alternateOfByte alternate
    pollPeriod := if low = 0xFF ∧ high = 0xFF then 500 else low.toNat + 256 * high.toNat
    retryLimit := if retry = 0xFF then 2 else retry.toNat
    offlineThreshold := if threshold = 0xFF then 3 else threshold.toNat
    enable := enable != 0 }

/-- R12, check 1: the ranges of R2 on the bytes of the body. -/
def DefinitionInRange (p : DefineParams) : Prop :=
  n.toNat ≤ 47 ∧ 1 ≤ address.toNat ∧ address.toNat ≤ 250 ∧ home.toNat ≤ 1
    ∧ (alternate.toNat ≤ 1 ∨ alternate = 0xFF) ∧ alternate ≠ home
    ∧ (p.pollPeriod = 0 ∨ 10 ≤ p.pollPeriod ∧ p.pollPeriod ≤ 60000) ∧ p.retryLimit ≤ 7 ∧ 1 ≤ p.offlineThreshold
    ∧ p.offlineThreshold ≤ 15

theorem alternateOfByte_eq_some {a b : Byte} (ha : a.toNat ≤ 1 ∨ a = 0xFF) (hb : b.toNat ≤ 1) :
    alternateOfByte a = some (lineOfByte b) ↔ a = b := by
  rcases ha with ha | rfl
  · have : a ≠ 255#8 := by bv_omega
    simp [alternateOfByte, this, lineOfByte_inj ha hb]
  · have : 255#8 ≠ b := by bv_omega
    simp [alternateOfByte, this]

variable {n address home alternate low high retry threshold enable} {body : List Byte} {p : DefineParams}
  (hb : body = [0x10#8, n, address, home, alternate, low, high, retry, threshold, enable])
  (hp : p = definition n address home alternate low high retry threshold enable)

include hb in
theorem flagAt_definition : flagAt body 9 = (enable != 0) := by
  have : u8At body 9 = enable.toNat := by rw [hb]; rfl
  rw [flagAt, this, Bool.eq_iff_iff]
  simp only [decide_eq_true_eq, bne_iff_ne]
  bv_omega

include hb hp in
/-- R12, check 1: with lines named, the other ranges decide. -/
theorem defineParams_of_lines {h : LineId} {a : Option LineId} (hh : lineOf home.toNat = some h)
    (ha : alternateOf alternate.toNat = some a) :
    defineParams body =
      if n.toNat < 48 ∧ addressInRange address.toNat ∧ a ≠ some h ∧ pollPeriodInRange p.pollPeriod
          ∧ retryLimitInRange p.retryLimit ∧ thresholdInRange p.offlineThreshold then
        some { p with home := h, alternate := a }
      else none := by
  have h1 : u8At body 1 = n.toNat := by rw [hb]; rfl
  have h2 : u8At body 2 = address.toNat := by rw [hb]; rfl
  have h3 : u8At body 3 = home.toNat := by rw [hb]; rfl
  have h4 : u8At body 4 = alternate.toNat := by rw [hb]; rfl
  have h5 : u16At body 5 = low.toNat + 256 * high.toNat := by rw [hb]; rfl
  have h7 : u8At body 7 = retry.toNat := by rw [hb]; rfl
  have h8 : u8At body 8 = threshold.toNat := by rw [hb]; rfl
  simp only [defineParams, h1, h2, h3, h4, h5, h7, h8, hh, ha, orDefault_word, orDefault_byte, flagAt_definition hb, hp]
  rfl

include hb hp in
theorem defineParams_of_inRange (h : DefinitionInRange n address home alternate p) : defineParams body = some p := by
  obtain ⟨hn, ha, ha', hh, hl, hne, hpp, hr, ht, ht'⟩ := h
  rw [defineParams_of_lines hb hp (lineOf_of_le hh) (alternateOf_of_le hl), if_pos, hp]
  · rfl
  · refine ⟨by omega, by simp [addressInRange, ha, ha'], mt (alternateOfByte_eq_some hl hh).1 hne, ?_, ?_, ?_⟩
    · simpa [pollPeriodInRange] using hpp
    · simpa [retryLimitInRange] using hr
    · simp [thresholdInRange, ht, ht']

include hb hp in
theorem defineParams_of_not_inRange (h : ¬DefinitionInRange n address home alternate p) : defineParams body = none := by
  by_cases hh : home.toNat ≤ 1
  · by_cases hl : alternate.toNat ≤ 1 ∨ alternate = 0xFF
    · rw [defineParams_of_lines hb hp (lineOf_of_le hh) (alternateOf_of_le hl)]
      refine if_neg fun ⟨hn, ha, hne, hpp, hr, ht⟩ => h ?_
      have ⟨ha, ha'⟩ : 1 ≤ address.toNat ∧ address.toNat ≤ 250 := by simpa [addressInRange] using ha
      exact ⟨by omega, ha, ha', hh, hl, mt (alternateOfByte_eq_some hl hh).2 hne,
        by simpa [pollPeriodInRange] using hpp, by simpa [retryLimitInRange] using hr,
        by simpa [thresholdInRange] using ht⟩
    · have h3 : u8At body 3 = home.toNat := by rw [hb]; rfl
      have h4 : u8At body 4 = alternate.toNat := by rw [hb]; rfl
      simp only [defineParams, h3, h4, lineOf_of_le hh, alternateOf_of_lt hl]
  · have h3 : u8At body 3 = home.toNat := by rw [hb]; rfl
    simp only [defineParams, h3, lineOf_of_lt (Nat.lt_of_not_le hh)]

end

/-- R4, R12: check 3 by the claims of the table. -/
theorem addressTaken_iff {p : DefineParams} {s : State} :
    addressTaken p s = true
      ↔ (∃ m e, s.station m = some e ∧ e.address = p.address ∧ (e.home = p.home ∨ e.alternate = some p.home))
        ∨ ∃ l, p.alternate = some l
            ∧ ∃ m e, s.station m = some e ∧ e.address = p.address ∧ (e.home = l ∨ e.alternate = some l) := by
  rw [addressTaken, Bool.or_eq_true, addressClaimed_iff]
  cases p.alternate with
  | none => simp
  | some l => simp [addressClaimed_iff]

/-- R12, R6, R7, R10: the entry defined, in the terms of the statements. -/
theorem applyDefineStation_defines {body : List Byte} {p : DefineParams} {s : State} (hp : defineParams body = some p)
    (hn : p.station < 48) (hs : s.station p.station = none) (ht : addressTaken p s = false) :
    applyDefineStation body s = answer .ok
      (probeListed (if p.enable then some p.home else none) p.station
        (s.setStation p.station (some
          (noticed (if p.enable then (newStation p).toProbing else (newStation p).toDisabled) .define)))) := by
  have defined := State.station_setStation_same s p.station (some (newStation p)) hn
  unfold applyDefineStation
  simp only [hp, hs, ht, Option.isSome_none, Bool.false_eq_true, if_false]
  cases p.enable
  case false =>
    simp only [Bool.false_eq_true, if_false, enterDisabled_eq defined, State.setStation_setStation,
      probeListed_onStation, State.onStation_of_station (State.station_setStation_same _ _ _ hn)]
    rfl
  case true =>
    simp only [if_true, enterProbing_eq defined, State.setStation_setStation,
      probeListed_onStation, State.onStation_of_station (State.station_setStation_same _ _ _ hn)]
    rfl

/-- Settles O16: the checks one after another, then the entry. -/
theorem defineStationFillsAnEntry : Obligations.DefineStationFillsAnEntry := by
  intro s r rest n address home alternate low high retry threshold enable h hb line period retryLimit offlineThreshold
    inRange taken inUse e
  have hc : requestCode r.body = some 0x10 := by rw [hb]; rfl
  have hl : lengthFits r.body = true := by rw [hb]; rfl
  let p := definition n address home alternate low high retry threshold enable
  have hp (hi : inRange) : defineParams r.body = some p := defineParams_of_inRange hb rfl hi
  have refused (st : Status) (ha : applyDefineStation r.body (headTaken rest s) = refuse st (headTaken rest s)) :
      exec .defineStation s = .next (refusedWith r rest st s) :=
    congrArg Host.Outcome.next (takeRequest_of_apply h hc hl (by decide) ha)
  have inUse_iff (hi : inRange) : addressTaken p (headTaken rest s) = true ↔ inUse := by
    obtain ⟨-, -, -, -, ha, -⟩ := hi
    rw [addressTaken_iff]
    refine or_congr Iff.rfl ?_
    rcases ha with ha | rfl
    · have : alternate ≠ 255#8 := by bv_omega
      simp [p, definition, alternateOfByte, this, ha]
      rfl
    · simp [p, definition, alternateOfByte]
  refine ⟨fun hi => refused _ ?_, fun hi hs => refused _ ?_, fun hi hs hu => refused _ ?_, fun hi hs hu => ?_⟩
  · have : defineParams r.body = none := defineParams_of_not_inRange hb rfl hi
    simp only [applyDefineStation, this]
  · have : ((headTaken rest s).station p.station).isSome := hs
    simp only [applyDefineStation, hp hi, this, if_true]
  · have hs : (headTaken rest s).station p.station = none := hs
    simp only [applyDefineStation, hp hi, hs, (inUse_iff hi).2 hu, if_true]
    rfl
  · have ht := Bool.eq_false_iff.2 (mt (inUse_iff hi).1 hu)
    refine congrArg Host.Outcome.next (takeRequest_of_apply h hc hl (by decide)
      ((applyDefineStation_defines (s := headTaken rest s) (hp hi) (Nat.lt_succ_of_le hi.1) hs ht).trans ?_))
    by_cases he : enable = 0
    · subst he
      rfl
    · have enabled : p.enable = true := bne_iff_ne.2 he
      simp only [enabled, if_true, e, he, if_false]
      rfl

end Sys2Proof.Machine
end

section
/-! REMOVE_STATION, ENABLE_STATION and DISABLE_STATION (R14 to R16), the station timers and the draining of notices
(R63, R79, R82, R155), and the restart (R20, R180). -/

namespace Sys2Proof.Machine

/-! ### REMOVE_STATION -/

theorem State.setStation_onStation (s : State) (n : Nat) (f : Station → Station) (e : Option Station) :
    (s.onStation n f).setStation n e = s.setStation n e := by
  cases h : s.station n with
  | none => rw [State.onStation_of_none h]
  | some d => rw [State.onStation_of_station h, State.setStation_setStation]

/-- R14: the records have completed REMOVED and the entry is undefined. -/
theorem removeStation_eq (n : Nat) {s : State} (h : TagsDistinct s) :
    removeStation n s =
      (probeListed none n
        (recordsDone (s.pool.records.filter (·.station == some n)) .removed s)).setStation n none := by
  obtain ⟨f, -, -, -, hf⟩ := completeAllOf_eq n .removed h
  rw [removeStation, hf, leaveProbeLists_eq, ← probeListed_onStation, State.setStation_onStation]
  rfl

/-- Settles O18. -/
theorem removeStationEmptiesTheEntry : Obligations.RemoveStationEmptiesTheEntry := by
  intro s r rest n h hd hb
  have hc : requestCode r.body = some 0x12 := by rw [hb]; rfl
  have hl : lengthFits r.body = true := by rw [hb]; rfl
  have hn : u8At r.body 1 = n.toNat := by rw [hb]; rfl
  refine congrArg Host.Outcome.next (takeRequest_of_withStation h hc hl (by decide) hn rfl fun e _ => ?_)
  by_cases hx : (s.inFlightKind n.toNat).isSome
  · exact ⟨_, .stationBusy, if_pos hx, (if_pos hx).symm⟩
  · refine ⟨_, .ok, if_neg hx, ?_⟩
    rw [if_neg hx, removeStation_eq _ (s := headTaken rest s) hd]
    rfl

/-! ### ENABLE_STATION and DISABLE_STATION -/

/-- R15, R6: a station that is enabled enters PROBING on its home line. -/
theorem enableStation_eq {n : Nat} {e : Station} {s : State} (he : s.station n = some e) :
    enableStation n s =
      probeListed (some e.home) n
        (s.setStation n (some (noticed ({ e with current := e.home } : Station).toProbing .enable))) := by
  have hn := State.station_lt he
  have homed := State.station_setStation_same s n (some { e with current := e.home }) hn
  rw [enableStation, State.onStation_of_station he, enterProbing_eq homed, State.setStation_setStation,
    probeListed_onStation, State.onStation_of_station (State.station_setStation_same _ _ _ hn),
    State.setStation_setStation]
  rfl

/-- Settles O19. -/
theorem stationsAreEnabledAndDisabled : Obligations.StationsAreEnabledAndDisabled := by
  constructor
  · intro s r rest n h hb
    have hc : requestCode r.body = some 0x13 := by rw [hb]; rfl
    have hl : lengthFits r.body = true := by rw [hb]; rfl
    have hn : u8At r.body 1 = n.toNat := by rw [hb]; rfl
    refine congrArg Host.Outcome.next (takeRequest_of_withStation h hc hl (by decide) hn rfl fun e he => ?_)
    by_cases hs : e.state = .disabled
    · refine ⟨_, .ok, if_pos hs, ?_⟩
      rw [if_pos hs, enableStation_eq (s := headTaken rest s) he]
      rfl
    · exact ⟨_, .ok, if_neg hs, by rw [if_neg hs]⟩
  · intro s r rest n h hd hb
    have hc : requestCode r.body = some 0x14 := by rw [hb]; rfl
    have hl : lengthFits r.body = true := by rw [hb]; rfl
    have hn : u8At r.body 1 = n.toNat := by rw [hb]; rfl
    refine congrArg Host.Outcome.next (takeRequest_of_withStation h hc hl (by decide) hn rfl fun e he => ?_)
    by_cases hs : e.state = .disabled ∨ e.pendingDisable = true
    · exact ⟨_, .ok, if_pos hs, by rw [if_pos hs]⟩
    · by_cases hx : (s.inFlightKind n.toNat).isSome
      · exact ⟨_, .ok, (if_neg hs).trans (if_pos hx), by rw [if_neg hs, if_pos hx]⟩
      · refine ⟨_, .ok, (if_neg hs).trans (if_neg hx), ?_⟩
        rw [if_neg hs, if_neg hx, disableTakesEffect_eq (s := headTaken rest s) hd he]
        rfl

/-! ### Station timers and notices -/

/-- R155: the lowest station with its notice flag set. -/
theorem firstNotice_eq {n : Nat} {e : Station} {s : State} (he : s.station n = some e) (hn : e.notice = true)
    (hl : ∀ m < n, ∀ f, s.station m = some f → f.notice = false) : firstNotice s = some n := by
  rw [firstNotice, List.find?_range_eq_some]
  refine ⟨by simp [noticeSet, he, hn], List.mem_range.2 (State.station_lt he), fun m hm => ?_⟩
  cases hf : s.station m with
  | none => simp [noticeSet, hf]
  | some f => simp [noticeSet, hf, hl m hm f hf]

/-- Settles O53. -/
theorem stationTimersExpireAndNoticesDrain : Obligations.StationTimersExpireAndNoticesDrain := by
  refine ⟨fun s n e he => ⟨fun h => ?_, fun _ => ?_, fun h => ?_⟩, fun s => ?_⟩
  · obtain ⟨t, ht⟩ := Option.isSome_iff_exists.1 h
    refine congrArg Host.Outcome.next ((State.onStation_of_station he _).trans ?_)
    simp only [Station.expirePoll, ht]
  · exact congrArg Host.Outcome.next (State.onStation_of_station he _)
  · obtain ⟨t, ht⟩ := Option.isSome_iff_exists.1 h
    refine congrArg Host.Outcome.next ((State.onStation_of_station he _).trans ?_)
    simp only [ht, Option.map_some]
  · intro reported
    refine ⟨fun full => ?_, fun space => ?_⟩
    · exact congrArg Host.Outcome.next (if_neg (Bool.eq_false_iff.1 (decide_eq_false (Nat.not_lt.2 full))))
    · have hs : s.queue.hasSpace = true := decide_eq_true space
      have drains {t : State} (h : drainOne s = t) : exec .noticeDrain s = .next t :=
        congrArg Host.Outcome.next ((if_pos hs).trans h)
      refine ⟨fun l hl hb => drains ?_, fun n e ha hb he hn hlow => drains ?_⟩
      · cases l
        case a => exact if_pos hl
        case b => exact (if_neg (by simp [hb rfl])).trans (if_pos hl)
      · simp only [drainOne, ha, hb, firstNotice_eq he hn hlow, Bool.false_eq_true, if_false, drainStation, he]
        rfl

/-! ### The restart -/

/-- R20: the probe list of a line after RESTART, by the table before it. -/
theorem takeRestart_probeList (s : State) (l : LineId) :
    ((takeRestart s).line l).probeList =
      (List.range 48).filter fun n =>
        (s.station n).any fun e => !(e.state == .disabled || e.pendingDisable) && e.home == l := by
  rw [takeRestart_line]
  refine (probingOn_eq _ _).trans ?_
  congr 1
  funext n
  rw [takeRestart_station]
  cases s.station n with
  | none => rfl
  | some e =>
    have home : e.restarted.current = e.home := rfl
    simp only [Option.map_some, Option.any_some, Station.restarted_state, home]
    by_cases h : e.state = .disabled ∨ e.pendingDisable = true
    · have : (e.state == .disabled || e.pendingDisable) = true := by simpa using h
      simp [h, this]
    · obtain ⟨h1, h2⟩ := not_or.1 h
      simp [h1, h2]

/-- R23, R25, R69: the character in the shift path that completes after RESTART; with it, whether it is on the internal
loop. -/
def Line.completing (ln : Line) : Option (LineCharacter × Bool) :=
  (ln.pinCharacter.map (·, false)).or (ln.loopCharacter.map (·, true))

theorem Line.restartEnding_eq (ln : Line) : ln.restartEnding = ln.completing.map fun c => .restart c.1 c.2 := by
  unfold Line.restartEnding Line.completing
  cases ln.pinCharacter <;> cases ln.loopCharacter <;> rfl

theorem Line.pinCharacter_isSome (ln : Line) : ln.pinCharacter.isSome = ln.completing.any (!·.2) := by
  unfold Line.completing
  cases ln.pinCharacter <;> cases ln.loopCharacter <;> rfl

theorem Line.afterRestart_of_ne {ln : Line} (h : ∀ c looped, ln.ending = some (.restart c looped) → False) :
    ln.afterRestart = none := by
  cases ha : ln.afterRestart with
  | none => rfl
  | some c => exact (h c.1 c.2 (Line.afterRestart_eq_some.1 ha)).elim

/-- R23: a character that an earlier RESTART left goes on completing. -/
theorem Line.completing_of_restart {ln : Line} {c : LineCharacter} {looped : Bool}
    (h : ln.ending = some (.restart c looped)) : ln.completing = some (c, looped) := by
  have : ln.afterRestart = some (c, looped) := Line.afterRestart_eq_some.2 h
  cases looped <;> simp [Line.completing, Line.pinCharacter, Line.loopCharacter, this]

/-- R25, R69: the character of an exchange in TRANSMIT. -/
theorem Line.completing_of_exchange {ln : Line} {x : Exchange} (ha : ln.afterRestart = none)
    (hx : ln.exchange = some x) :
    ln.completing = if x.phase = .transmit then some (frameCharacter x.frame x.charsSent, false) else none := by
  by_cases hp : x.phase = .transmit <;>
    simp [Line.completing, Line.pinCharacter, Line.loopCharacter, Line.exchangeCharacter, Line.testCharacter, ha,
      hx, hp]

/-- R23: the character of a line test in SENDING. -/
theorem Line.completing_of_test {ln : Line} {t : LineTest} (ha : ln.afterRestart = none) (hx : ln.exchange = none)
    (ht : ln.test = some t) :
    ln.completing =
      if t.phase = .sending then some (frameCharacter (testFrame t.index) t.charsSent, true) else none := by
  by_cases hp : t.phase = .sending <;>
    simp [Line.completing, Line.pinCharacter, Line.loopCharacter, Line.exchangeCharacter, Line.testCharacter, ha,
      hx, ht, hp]

theorem Line.completing_of_idle {ln : Line} (ha : ln.afterRestart = none) (hx : ln.exchange = none)
    (ht : ln.test = none) : ln.completing = none := by
  simp [Line.completing, Line.pinCharacter, Line.loopCharacter, Line.exchangeCharacter, Line.testCharacter, ha, hx, ht]

/-- R139: the control byte of a test frame. -/
theorem testFrame_eq (n : Nat) :
    testFrame n = lineFrame 0 (if n % 2 = 1 then 0x14#8 else 0x04#8) ((List.range 32).map fun p => b8 (7 * n + p)) := by
  have control : controlByte 0x4 (n % 2 == 1) false = if n % 2 = 1 then 0x14#8 else 0x04#8 := by
    by_cases h : n % 2 = 1 <;> simp [h, controlByte, flagBit, b8]
  rw [testFrame, control]
  rfl

/-- R20, R23, R69, R88, R127: the line column that RESTART leaves, field by field. -/
theorem takeRestart_line_eq (s : State) (l : LineId) :
    (takeRestart s).line l =
      { Line.powerOn with
        config := (s.line l).config, rxMark := (s.line l).rxMark
        driver := (s.line l).completing.any (!·.2)
        ending := (s.line l).completing.map fun c => .restart c.1 c.2
        probeList := (List.range 48).filter fun n =>
          (s.station n).any fun e => !(e.state == .disabled || e.pendingDisable) && e.home == l } := by
  rw [← takeRestart_probeList, ← Line.restartEnding_eq, ← Line.pinCharacter_isSome, takeRestart_line]
  rfl

/-- Settles O14: the entries, the lines and the link that the restart leaves, one after another. -/
theorem restartIsTakenAsAWhole : Obligations.RestartIsTakenAsAWhole := by
  intro s f hf hk
  refine ⟨takeRestart s, ?_, ?_, fun n => ?_, fun l => ?_, rfl, rfl, rfl, rfl, rfl⟩
  · refine congrArg Host.Outcome.next (if_pos ?_)
    simp [restartLeaving, hf, hk]
  · refine congrArg Host.Outcome.next ?_
    simp only [hf, hk]
  · rw [takeRestart_station]
    cases s.station n with
    | none => rfl
    | some e =>
      by_cases h : e.state = .disabled ∨ e.pendingDisable = true
      · have stays : (e.state == .disabled || e.pendingDisable) = true := by simpa using h
        simp [Station.restarted, stays, h, StationCounters.zero]
      · have leaves : (e.state == .disabled || e.pendingDisable) = false := by simpa using h
        simp [Station.restarted, leaves, h, StationCounters.zero]
  · extract_lets frameOf completing
    have frames (t : LineTest) : frameOf t = testFrame t.index := (testFrame_eq t.index).symm
    have same : completing = (s.line l).completing := by
      simp only [completing, frames]
      split
      next c looped he => rw [Line.completing_of_restart he]
      next x hx no => rw [Line.completing_of_exchange (Line.afterRestart_of_ne no) hx]; rfl
      next t hx ht no => rw [Line.completing_of_test (Line.afterRestart_of_ne no) hx ht]; rfl
      next hx ht no => rw [Line.completing_of_idle (Line.afterRestart_of_ne no) hx ht]
    rw [takeRestart_line_eq, same]
    rfl

end Sys2Proof.Machine
end

section
/-! SUPPORT. The end of an exchange with a pending disable (R17, R64): clearing the mark of a pending disable commutes
with everything else that the end of an exchange does, and distinct tags stay distinct. -/

namespace Sys2Proof.Machine

/-! ### Changes that commute -/

theorem State.setStation_comm (s : State) {m n : Nat} (h : m ≠ n) (a b : Option Station) :
    (s.setStation m a).setStation n b = (s.setStation n b).setStation m a := by
  unfold State.setStation
  by_cases hm : m < 48 <;> by_cases hn : n < 48 <;> simp [hm, hn]
  exact Vector.set_comm _ _ h

theorem State.onStation_comm (s : State) {m n : Nat} {f g : Station → Station} (h : m = n → ∀ e, f (g e) = g (f e)) :
    (s.onStation m f).onStation n g = (s.onStation n g).onStation m f := by
  by_cases hmn : m = n
  · subst hmn
    rw [State.onStation_onStation, State.onStation_onStation]
    congr 1
    funext e
    exact (h rfl e).symm
  · cases hm : s.station m with
    | none =>
      rw [State.onStation_of_none hm]
      exact (State.onStation_of_none (by rw [State.station_onStation_ne _ _ hmn, hm]) _).symm
    | some a =>
      cases hn : s.station n with
      | none =>
        rw [State.onStation_of_none hn]
        exact State.onStation_of_none (by rw [State.station_onStation_ne _ _ (Ne.symm hmn), hn]) _
      | some b =>
        rw [State.onStation_of_station hm, State.onStation_of_station hn,
          State.onStation_of_station ((State.station_setStation_ne _ _ (Ne.symm hmn)).trans hn),
          State.onStation_of_station ((State.station_setStation_ne _ _ hmn).trans hm), State.setStation_comm _ hmn]

theorem State.onStation_onLine (s : State) (n : Nat) (f : Station → Station) (l : LineId) (g : Line → Line) :
    (s.onStation n f).onLine l g = (s.onLine l g).onStation n f := by
  cases he : s.station n with
  | none => rw [State.onStation_of_none he, State.onStation_of_none (by simpa using he)]
  | some e =>
    rw [State.onStation_of_station he, State.onStation_of_station (e := e) (by simpa using he)]
    unfold State.setStation
    split <;> cases l <;> rfl

theorem State.onStation_onQueue (s : State) (n : Nat) (f : Station → Station) (g : ReportQueue → ReportQueue) :
    (s.onStation n f).onQueue g = (s.onQueue g).onStation n f := by
  unfold State.onStation State.setStation
  rw [State.onQueue_station]
  split
  · rfl
  · split <;> rfl

theorem State.onStation_onPool (s : State) (n : Nat) (f : Station → Station) (g : Pool → Pool) :
    (s.onStation n f).onPool g = (s.onPool g).onStation n f := by
  unfold State.onStation State.setStation
  rw [State.onPool_station]
  split
  · rfl
  · split <;> rfl

/-- R16: the mark of a pending disable, set or cleared. -/
def Station.markDisable (b : Bool) (e : Station) : Station := { e with pendingDisable := b }

/-- A change of the state that takes no account of the mark of a pending disable of station n, and keeps it. -/
def IgnoresDisable (n : Nat) (op : State → State) : Prop :=
  ∀ b s, op (s.onStation n (Station.markDisable b)) = (op s).onStation n (Station.markDisable b)

section
variable {n : Nat} {op op' : State → State}

theorem IgnoresDisable.comp (h : IgnoresDisable n op) (h' : IgnoresDisable n op') :
    IgnoresDisable n fun s => op (op' s) := fun b s => (congrArg op (h' b s)).trans (h b _)

theorem IgnoresDisable.onLine (l : LineId) (f : Line → Line) : IgnoresDisable n (·.onLine l f) :=
  fun _ s => s.onStation_onLine n _ l f

theorem IgnoresDisable.onPool (f : Pool → Pool) : IgnoresDisable n (·.onPool f) := fun _ s => s.onStation_onPool n _ f

theorem IgnoresDisable.onQueue (f : ReportQueue → ReportQueue) : IgnoresDisable n (·.onQueue f) :=
  fun _ s => s.onStation_onQueue n _ f

theorem IgnoresDisable.onStation {m : Nat} {f : Station → Station}
    (h : ∀ b e, f (e.markDisable b) = (f e).markDisable b := by exact fun _ _ => rfl) :
    IgnoresDisable n (·.onStation m f) :=
  fun b s => State.onStation_comm s fun _ e => (h b e).symm

theorem IgnoresDisable.leaveProbeLists (m : Nat) : IgnoresDisable n (leaveProbeLists m) := fun b s => by
  rw [leaveProbeLists_eq, leaveProbeLists_eq, probeListed_onStation]

theorem IgnoresDisable.joinProbeList (l : LineId) (m : Nat) : IgnoresDisable n (joinProbeList l m) := .onLine l _

theorem IgnoresDisable.convert (r : Report) : IgnoresDisable n (convert r) := fun b s => by
  unfold Machine.convert release enqueue
  rw [State.onStation_onQueue, State.onStation_onQueue]

theorem IgnoresDisable.resetBusyStreak (r : CommandRecord) (b : Bool) : IgnoresDisable n (resetBusyStreak r b) := by
  unfold Machine.resetBusyStreak
  cases r.station with
  | none => exact fun _ _ => rfl
  | some m => cases b with
    | false => exact fun _ _ => rfl
    | true => exact .onStation

theorem IgnoresDisable.completeRecord (r : CommandRecord) (o : CommandOutcome) (d : List Byte) :
    IgnoresDisable n (completeRecord r o d) := fun b s => by
  unfold Machine.completeRecord
  rw [State.onStation_pool, State.onStation_onPool, IgnoresDisable.convert, IgnoresDisable.resetBusyStreak]

theorem IgnoresDisable.completeRecords (rs : List CommandRecord) (o : CommandOutcome) :
    IgnoresDisable n (completeRecords rs o) := by
  intro b s
  unfold Machine.completeRecords
  induction rs generalizing s with
  | nil => rfl
  | cons r rs ih => rw [List.foldl_cons, List.foldl_cons, IgnoresDisable.completeRecord, ih]

theorem IgnoresDisable.completeAllOf (m : Nat) (o : CommandOutcome) : IgnoresDisable n (completeAllOf m o) :=
  fun b s => by
  unfold Machine.completeAllOf
  rw [State.onStation_pool, IgnoresDisable.completeRecords]

theorem IgnoresDisable.resyncRelease (m : Nat) : IgnoresDisable n (resyncRelease m) := fun b s => by
  unfold Machine.resyncRelease
  rw [State.onStation_pool, IgnoresDisable.completeRecords]

/-- A change that looks at the entry of the station itself. -/
theorem IgnoresDisable.of_entry (h0 : ∀ s, s.station n = none → op s = s)
    (h : ∀ b s e, s.station n = some e →
      op (s.setStation n (some (e.markDisable b))) = (op s).onStation n (Station.markDisable b)) :
    IgnoresDisable n op := by
  intro b s
  cases he : s.station n with
  | none => rw [State.onStation_of_none he, h0 s he, State.onStation_of_none he]
  | some e => rw [State.onStation_of_station he, h b s e he]

/-- An entry that is written anew from the old one, and then changed further. -/
theorem IgnoresDisable.setStation {b : Bool} {s : State} {e : Station} (he : s.station n = some e)
    (h : IgnoresDisable n op)
    {f : Station → Station} (hf : ∀ b d, f (d.markDisable b) = (f d).markDisable b := by exact fun _ _ => rfl) :
    op ((s.setStation n (some (e.markDisable b))).setStation n (some (f (e.markDisable b))))
      = (op (s.setStation n (some (f e)))).onStation n (Station.markDisable b) := by
  rw [← h, State.onStation_of_station (State.station_setStation_same _ _ _ (State.station_lt he)),
    State.setStation_setStation, State.setStation_setStation, hf]

theorem IgnoresDisable.id : IgnoresDisable n fun s => s := fun _ _ => rfl

theorem IgnoresDisable.enterProbing : IgnoresDisable n (enterProbing n) := by
  refine .of_entry (fun s he => ?_) (fun b s e he => ?_)
  · rw [Machine.enterProbing, he]
  · have he' := State.station_setStation_same s n (some (e.markDisable b)) (State.station_lt he)
    simp only [Machine.enterProbing, he, he']
    exact IgnoresDisable.setStation he ((IgnoresDisable.joinProbeList _ n).comp (.leaveProbeLists n))

theorem IgnoresDisable.enterOffline : IgnoresDisable n (enterOffline n) := by
  refine .of_entry (fun s he => ?_) (fun b s e he => ?_)
  · rw [Machine.enterOffline, he]
  · have he' := State.station_setStation_same s n (some (e.markDisable b)) (State.station_lt he)
    have state : (e.markDisable b).state = e.state := rfl
    simp only [Machine.enterOffline, he, he', state]
    split
    · exact IgnoresDisable.setStation he .id (f := fun d => { d with state := .offline })
    · exact IgnoresDisable.setStation he ((IgnoresDisable.joinProbeList _ n).comp (.leaveProbeLists n))
        (f := fun d => { d with state := .offline, pollTimer := none, pollDue := false, probeTimer := some 0 })

theorem IgnoresDisable.raiseNotice (c : StationCause) : IgnoresDisable n (·.onStation n (·.raiseNotice c)) := .onStation

theorem IgnoresDisable.loseStation : IgnoresDisable n (loseStation n) :=
  (IgnoresDisable.raiseNotice .lost).comp ((IgnoresDisable.completeAllOf n .stationLost).comp .enterOffline)

theorem IgnoresDisable.failOver : IgnoresDisable n (failOver n) := by
  refine .of_entry (fun s he => ?_) (fun b s e he => ?_)
  · rw [Machine.failOver, he]
  · have he' := State.station_setStation_same s n (some (e.markDisable b)) (State.station_lt he)
    have moved : IgnoresDisable n fun s =>
        (Machine.enterProbing n (moveRecords n e.current.other (Machine.resyncRelease n
          ((Machine.leaveProbeLists n s).onStation n Station.switchLine)))).onStation n (·.raiseNotice .failover) :=
      (IgnoresDisable.raiseNotice .failover).comp (IgnoresDisable.enterProbing.comp ((IgnoresDisable.onPool _).comp
        ((IgnoresDisable.resyncRelease n).comp
          (IgnoresDisable.comp IgnoresDisable.onStation (IgnoresDisable.leaveProbeLists n)))))
    rw [← State.onStation_of_station he]
    simp only [Machine.failOver, he, State.onStation_of_station he, he']
    rw [← State.onStation_of_station he]
    exact moved b s

theorem IgnoresDisable.compareThreshold : IgnoresDisable n (compareThreshold n) := by
  refine .of_entry (fun s he => ?_) (fun b s e he => ?_)
  · rw [Machine.compareThreshold, he]
  · have he' := State.station_setStation_same s n (some (e.markDisable b)) (State.station_lt he)
    have threshold : (e.markDisable b).offlineThreshold = e.offlineThreshold := rfl
    have failures : (e.markDisable b).failures = e.failures := rfl
    have possible :
        failoverPossible (e.markDisable b) (s.setStation n (some (e.markDisable b))) = failoverPossible e s := by
      rw [failoverPossible, State.setStation_line]
      rfl
    simp only [Machine.compareThreshold, he, he', threshold, failures, possible]
    rw [← State.onStation_of_station he]
    split
    · split
      · exact IgnoresDisable.failOver b s
      · exact IgnoresDisable.loseStation b s
    · rfl

theorem IgnoresDisable.stationFailed : IgnoresDisable n (stationFailed n) := by
  refine .of_entry (fun s he => ?_) (fun b s e he => ?_)
  · rw [Machine.stationFailed, he]
  · have he' := State.station_setStation_same s n (some (e.markDisable b)) (State.station_lt he)
    have state : (e.markDisable b).state = e.state := rfl
    have counted (st) {op} (h : IgnoresDisable n op) := IgnoresDisable.setStation (b := b) he h
      (f := fun d => { d with failures := bump15 d.failures, state := st })
    simp only [Machine.stationFailed, he, he', state]
    cases e.state
    case disabled => exact (State.onStation_of_station he _).symm
    case online =>
      exact IgnoresDisable.setStation he .compareThreshold
        (f := fun d => ({ d with failures := bump15 d.failures, state := .suspect } : Station).raiseNotice .failing)
    case suspect => exact counted _ .compareThreshold
    case probing => exact counted _ .compareThreshold
    case offline => exact counted _ .id

theorem IgnoresDisable.stationReached : IgnoresDisable n (stationReached n) := fun b s => by
  unfold Machine.stationReached
  rw [IgnoresDisable.leaveProbeLists]
  exact State.onStation_comm _ fun _ _ => rfl

theorem IgnoresDisable.stationAnswered : IgnoresDisable n (stationAnswered n) := by
  refine .of_entry (fun s he => ?_) (fun b s e he => ?_)
  · rw [Machine.stationAnswered, he]
  · have he' := State.station_setStation_same s n (some (e.markDisable b)) (State.station_lt he)
    have state : (e.markDisable b).state = e.state := rfl
    simp only [Machine.stationAnswered, he, he', state]
    cases e.state
    case disabled => exact (State.onStation_of_station he _).symm
    case online => exact (State.onStation_of_station he _).symm
    case suspect =>
      exact IgnoresDisable.setStation he .id
        (f := fun d => ({ d with state := .online, failures := 0 } : Station).raiseNotice .recovered)
    case probing => exact State.onStation_of_station he _ ▸ IgnoresDisable.stationReached b s
    case offline => exact State.onStation_of_station he _ ▸ IgnoresDisable.stationReached b s

theorem IgnoresDisable.applyResult (r : ExchangeResult) : IgnoresDisable n (applyResult n r) := by
  cases r
  case answered => exact .stationAnswered
  case failed => exact .stationFailed
  case nothing => exact .id

end

end Sys2Proof.Machine
end

section
/-! SUPPORT. Distinct tags stay distinct (R93): what ends exchanges, loses stations and completes records takes records
from the pool, or changes them in place, and adds none. -/

namespace Sys2Proof.Machine

/-- The tags of the live records of `t` are those of `s`, in their order, or some of them. -/
def State.Sheds (s t : State) : Prop := (t.pool.records.map (·.tag)).Sublist (s.pool.records.map (·.tag))

theorem State.Sheds.tagsDistinct {s t : State} (h : s.Sheds t) (hs : TagsDistinct s) : TagsDistinct t := h.nodup hs

theorem State.Sheds.refl (s : State) : s.Sheds s := List.Sublist.refl _

theorem State.Sheds.trans {s t u : State} (h : s.Sheds t) (k : t.Sheds u) : s.Sheds u := List.Sublist.trans k h

section
variable {s t : State}

theorem State.Sheds.of_pool (h : s.Sheds t) {u : State} (hp : u.pool = t.pool := by simp) : s.Sheds u := by
  unfold State.Sheds
  rw [hp]
  exact h

theorem State.Sheds.onStation (h : s.Sheds t) {n : Nat} {f : Station → Station} : s.Sheds (t.onStation n f) := h.of_pool

theorem State.Sheds.onLine (h : s.Sheds t) {l : LineId} {f : Line → Line} : s.Sheds (t.onLine l f) := h.of_pool

/-- Records changed in place keep their tags. -/
theorem State.Sheds.mapRecords (h : s.Sheds t) {f : CommandRecord → CommandRecord} (hf : ∀ r, (f r).tag = r.tag) :
    s.Sheds (t.onPool fun p => { p with records := p.records.map f }) := by
  have tags : (t.pool.records.map f).map (·.tag) = t.pool.records.map (·.tag) := by
    rw [List.map_map]
    exact List.map_congr_left fun r _ => hf r
  unfold State.Sheds
  rw [State.onPool_pool, tags]
  exact h

theorem State.Sheds.onRecord (h : s.Sheds t) {tag : Half} {f : CommandRecord → CommandRecord}
    (hf : ∀ r, (f r).tag = r.tag) : s.Sheds (onRecord tag f t) :=
  h.mapRecords fun r => by split <;> simp [hf]

theorem State.Sheds.completeRecord (h : s.Sheds t) {r : CommandRecord} {o : CommandOutcome} {d : List Byte} :
    s.Sheds (completeRecord r o d t) := by
  refine State.Sheds.of_pool (h.trans ?_) (resetBusyStreak_pool ..)
  exact List.eraseP_sublist.map _

theorem State.Sheds.completeRecords (h : s.Sheds t) {rs : List CommandRecord} {o : CommandOutcome} :
    s.Sheds (completeRecords rs o t) := by
  unfold Machine.completeRecords
  induction rs generalizing t with
  | nil => exact h
  | cons r rs ih => exact ih h.completeRecord

theorem State.Sheds.completeAllOf (h : s.Sheds t) {n : Nat} {o : CommandOutcome} : s.Sheds (completeAllOf n o t) :=
  h.completeRecords

theorem enterProbing_pool (n : Nat) (s : State) : (enterProbing n s).pool = s.pool := by
  unfold enterProbing
  split
  · rfl
  · simp [joinProbeList, leaveProbeLists]

theorem enterOffline_pool (n : Nat) (s : State) : (enterOffline n s).pool = s.pool := by
  unfold enterOffline
  split
  · rfl
  · split <;> simp [joinProbeList, leaveProbeLists]

theorem stationAnswered_pool (n : Nat) (s : State) : (stationAnswered n s).pool = s.pool := by
  unfold stationAnswered
  split
  · rfl
  · split <;> simp [stationReached, leaveProbeLists]

theorem State.Sheds.disableTakesEffect (h : s.Sheds t) {n : Nat} : s.Sheds (disableTakesEffect n t) :=
  (State.Sheds.completeAllOf (h.of_pool (by simp [enterDisabled, leaveProbeLists]))).onStation

theorem State.Sheds.resolveDisable (h : s.Sheds t) {n : Nat} : s.Sheds (resolveDisable n t) := by
  unfold Machine.resolveDisable
  split
  · exact h
  · split
    · exact h.disableTakesEffect
    · exact h

theorem State.Sheds.loseStation (h : s.Sheds t) {n : Nat} : s.Sheds (loseStation n t) :=
  (State.Sheds.completeAllOf (h.of_pool (enterOffline_pool n t))).onStation

theorem State.Sheds.failOver (h : s.Sheds t) {n : Nat} : s.Sheds (failOver n t) := by
  unfold Machine.failOver
  split
  · exact h
  · refine State.Sheds.onStation (State.Sheds.of_pool ?_ (enterProbing_pool ..))
    refine State.Sheds.mapRecords (State.Sheds.completeRecords ?_) fun r => by split <;> rfl
    exact State.Sheds.onStation (t := leaveProbeLists n t) h

theorem State.Sheds.compareThreshold (h : s.Sheds t) {n : Nat} : s.Sheds (compareThreshold n t) := by
  unfold Machine.compareThreshold
  split
  · exact h
  · split
    · split
      · exact h.failOver
      · exact h.loseStation
    · exact h

theorem State.Sheds.stationFailed (h : s.Sheds t) {n : Nat} : s.Sheds (stationFailed n t) := by
  unfold Machine.stationFailed
  split
  · exact h
  · split
    · exact h
    · exact State.Sheds.compareThreshold h.of_pool
    · exact State.Sheds.compareThreshold h.of_pool
    · exact State.Sheds.compareThreshold h.of_pool
    · exact h.of_pool

theorem State.Sheds.applyResult (h : s.Sheds t) {n : Nat} {r : ExchangeResult} : s.Sheds (applyResult n r t) := by
  cases r with
  | answered => exact h.of_pool (stationAnswered_pool n t)
  | failed => exact h.stationFailed
  | nothing => exact h

theorem State.Sheds.endExchange (h : s.Sheds t) {l : LineId} : s.Sheds (endExchange l t) := by
  unfold Machine.endExchange
  split
  · exact h
  · dsimp only
    split
    · exact h.onLine
    · exact h.onLine.applyResult.resolveDisable

theorem State.Sheds.giveBack (h : s.Sheds t) {x : Exchange} : s.Sheds (giveBack x t) := by
  unfold Machine.giveBack
  split
  · exact h
  · split
    · exact h
    · split
      · exact h.completeRecord
      · exact h.onRecord fun _ => rfl

theorem endScan_pool (l : LineId) (status : ScanStatus) (s : State) : (endScan l status s).pool = s.pool := by
  unfold endScan
  split
  · rfl
  · simp [convert, enqueue, release]

theorem rollCallResult_pool (l : LineId) (present : Bool) (s : State) :
    (rollCallResult l present s).pool = s.pool := by
  unfold rollCallResult
  split
  · rfl
  · split
    · rfl
    · dsimp only
      split <;> simp [endScan_pool]

theorem releaseHeld_pool (x : Exchange) (s : State) : (releaseHeld x s).pool = s.pool := by
  unfold releaseHeld
  split <;> rfl

theorem State.Sheds.onNamed (h : s.Sheds t) {x : Exchange} {f : Station → Station} : s.Sheds (onNamed x f t) := by
  unfold Machine.onNamed
  split
  · exact h
  · exact h.onStation

theorem State.Sheds.disposeWork (h : s.Sheds t) {l : LineId} {x : Exchange} : s.Sheds (disposeWork l x t) := by
  cases hk : x.kind with
  | poll => exact (by simpa [Machine.disposeWork, hk] using (h.of_pool (releaseHeld_pool x t)).onNamed)
  | probe => exact (by simpa [Machine.disposeWork, hk] using (h.of_pool (releaseHeld_pool x t)).onNamed)
  | rollCall => exact (by simpa [Machine.disposeWork, hk] using h.of_pool (rollCallResult_pool l false t))
  | command => exact disposeWork_of_record (.inl hk) ▸ h.giveBack
  | broadcast => exact disposeWork_of_record (.inr hk) ▸ h.giveBack

theorem State.Sheds.endAssembly (h : s.Sheds t) {l : LineId} : s.Sheds (endAssembly l t) := h.onLine

theorem State.Sheds.cutOff (h : s.Sheds t) {l : LineId} : s.Sheds (cutOff l t) := by
  unfold Machine.cutOff
  dsimp only
  split
  · exact h.endAssembly.onLine
  · split
    · exact h.endAssembly.onLine.endExchange
    · exact h.endAssembly.onLine.disposeWork.endExchange

end

/-! ### A pending disable takes effect last (R17) -/

theorem disableDone_markDisable (n : Nat) (b : Bool) (s : State) :
    disableDone n (s.onStation n (Station.markDisable b)) = disableDone n s := by
  cases he : s.station n with
  | none => rw [State.onStation_of_none he]
  | some e =>
    simp only [disableDone, State.station_onStation_same, he, Option.map_some, State.onStation_pool,
      recordsDone_onStation, State.setStation_onStation]
    rfl

/-- R16: a disable that takes effect on a station, or does nothing to an undefined entry. -/
theorem disableTakesEffect_eq_disableDone (n : Nat) {s : State} (h : TagsDistinct s) (he : (s.station n).isSome) :
    disableTakesEffect n s = disableDone n s := by
  obtain ⟨e, he⟩ := Option.isSome_iff_exists.1 he
  rw [disableTakesEffect_eq h he, disableDone, he]
  rfl

/-- A change that takes no account of a pending disable, of the state with its mark cleared. -/
theorem IgnoresDisable.cleared {n : Nat} {op : State → State} {s : State} {e : Station} (hop : IgnoresDisable n op)
    (he : s.station n = some e) :
    op (s.setStation n (some { e with pendingDisable := false })) = (op s).onStation n (Station.markDisable false) := by
  rw [← hop, State.onStation_of_station he]
  rfl

/-- R17: a change that takes no account of a pending disable, and then the disable, comes to that change of the state
without the mark, and then the disable. -/
theorem resolveDisable_of_ignores {n : Nat} {op : State → State} {s : State} {e : Station} (hop : IgnoresDisable n op)
    (he : s.station n = some e) (hp : e.pendingDisable = true) (hd : TagsDistinct (op s)) :
    resolveDisable n (op s)
      = disableDone n (resolveDisable n (op (s.setStation n (some { e with pendingDisable := false })))) := by
  have marked : s.onStation n (Station.markDisable true) = s := by
    have same : e.markDisable true = e := by simp [Station.markDisable, ← hp]
    rw [State.onStation_of_station he, same, ← he, State.setStation_station]
  rw [hop.cleared he]
  cases hf : (op s).station n with
  | none => simp [resolveDisable, disableDone, hf, State.onStation_of_none]
  | some f =>
    have pending : f.pendingDisable = true := by
      have := congrArg (·.station n) (hop true s)
      rw [marked] at this
      simp only [State.station_onStation_same, hf, Option.map_some, Option.some.injEq] at this
      rw [this]
      rfl
    have clear : resolveDisable n ((op s).onStation n (Station.markDisable false))
        = (op s).onStation n (Station.markDisable false) :=
      resolveDisable_of_clear (e := f.markDisable false) (by rw [State.station_onStation_same, hf]; rfl) rfl
    rw [clear, disableDone_markDisable, resolveDisable_of_pending hf pending,
      disableTakesEffect_eq_disableDone n hd (by simp [hf])]

end Sys2Proof.Machine
end

section
/-! PROOF. GAP_EXPIRY (R48, R55, R64): the exchange repeats its attempt, or ends. -/

namespace Sys2Proof.Machine

/-! ### The oldest record of a station (R90, R99) -/

theorem oldestOf_of_takeWhile {rs : List CommandRecord} {q : CommandRecord} {n : Nat} (hd : (rs.map (·.tag)).Nodup)
    (hq : q ∈ rs) (hn : q.station = some n) (before : ∀ c ∈ rs.takeWhile (·.tag != q.tag), c.station ≠ some n) :
    (rs.filter (·.station == some n)).head? = some q := by
  induction rs with
  | nil => cases hq
  | cons a rs ih =>
    rw [List.map_cons, List.nodup_cons] at hd
    rcases List.mem_cons.1 hq with rfl | hm
    · simp [hn]
    · have differ : a.tag ≠ q.tag := fun h => hd.1 (h ▸ List.mem_map_of_mem (f := (·.tag)) hm)
      have ha : a.station ≠ some n := before a (by simp [differ])
      rw [List.filter_cons_of_neg (by simpa using ha)]
      exact ih hd.2 hm fun c hc => before c (by simp [differ, hc])

/-- R99: the station's oldest record completes, and its busy streak becomes 0. -/
theorem completeRecord_of_oldest {q : CommandRecord} {n : Nat} {e : Station} {s : State} (o : CommandOutcome)
    (d : List Byte) (hd : TagsDistinct s) (hq : q ∈ s.pool.records) (hn : q.station = some n)
    (he : s.station n = some e) (before : ∀ c ∈ s.pool.records.takeWhile (·.tag != q.tag), c.station ≠ some n) :
    completeRecord q o d s = recordDone q o d (s.setStation n (some { e with busyStreak := 0 })) := by
  have oldest : s.pool.isOldest q = true := by
    simp [Pool.isOldest, Pool.oldestOf, Pool.recordsOf, hn, oldestOf_of_takeWhile hd hq hn before]
  rw [completeRecord_eq _ _ _ hd, oldest]
  simp only [resetBusyStreak, hn, if_true]
  rw [← recordDone_onStation, State.onStation_of_station he]

theorem recordDone_line (q : CommandRecord) (o : CommandOutcome) (d : List Byte) (s : State) (l : LineId) :
    (recordDone q o d s).line l = s.line l := by cases l <;> rfl

theorem recordDone_onLine (q : CommandRecord) (o : CommandOutcome) (d : List Byte) (s : State) (l : LineId)
    (f : Line → Line) : (recordDone q o d s).onLine l f = recordDone q o d (s.onLine l f) := by cases l <;> rfl

theorem State.setStation_onLine (s : State) (n : Nat) (e : Option Station) (l : LineId) (f : Line → Line) :
    (s.setStation n e).onLine l f = (s.onLine l f).setStation n e := by
  unfold State.setStation
  split <;> cases l <;> rfl

/-! ### The end of an exchange -/

/-- R64: an exchange with a station that has no disable pending ends. -/
theorem endExchange_of_clear {l : LineId} {x : Exchange} {n : Nat} {e : Station} {s : State}
    (hx : (s.line l).exchange = some x) (hn : x.station = some n) (hr : x.result = .nothing)
    (he : s.station n = some e) (hp : e.pendingDisable = false) :
    endExchange l s = s.onLine l fun ln => { ln with exchange := none } := by
  rw [endExchange_of_station hx hn, hr]
  exact resolveDisable_of_clear ((State.onLine_station ..).trans he) hp

/-- R17: a disable that is pending takes effect after the end of the exchange, whatever came before that end. -/
theorem endExchange_of_pending {l : LineId} {x : Exchange} {n : Nat} {e : Station} {op : State → State} {s : State}
    (hop : IgnoresDisable n op) (hx : ((op s).line l).exchange = some x) (hn : x.station = some n)
    (he : s.station n = some e) (hp : e.pendingDisable = true) (hd : TagsDistinct (op s)) :
    endExchange l (op s)
      = disableDone n (endExchange l (op (s.setStation n (some { e with pendingDisable := false })))) := by
  have hx' : ((op (s.setStation n (some { e with pendingDisable := false }))).line l).exchange = some x := by
    rw [hop.cleared he, State.onStation_line, hx]
  rw [endExchange_of_station hx hn, endExchange_of_station hx' hn]
  have ends : IgnoresDisable n fun s =>
      applyResult n x.result ((op s).onLine l fun ln => { ln with exchange := none }) :=
    (IgnoresDisable.applyResult x.result).comp ((IgnoresDisable.onLine l _).comp hop)
  have idle : (op s).Sheds ((op s).onLine l fun ln => { ln with exchange := none }) := (State.Sheds.refl _).onLine
  have last := resolveDisable_of_ignores ends he hp (idle.applyResult.tagsDistinct hd)
  exact last

/-! ### GAP_EXPIRY -/

section
variable {s : State} {l : LineId} {x : Exchange}

theorem exec_gapExpiry (hx : (s.line l).exchange = some x) (hp : x.phase = .gap) :
    exec (.gapExpiry l) s = .next (expireGap l x s) := by
  show execGapExpiry l s = _
  simp [execGapExpiry, exchangeIn, hx, Option.filter, hp]

theorem expireGap_of_decided (ho : x.outcome.isSome) : expireGap l x s = endExchange l s := by
  simp [expireGap, ho]

theorem expireGap_of_cancel {q : CommandRecord} (hd : TagsDistinct s) (ho : x.outcome = none)
    (hq : q ∈ s.pool.records) (hr : x.record = some q.tag) (hc : q.cancelPending = true) :
    expireGap l x s = endExchange l (completeRecord q .cancelled [] s) := by
  have pending : carriedCancelPending x s = true := by
    simp [carriedCancelPending, hr, Pool.find_of_mem hd hq, hc]
  simp [expireGap, ho, pending, completeCarried_eq _ _ hr hd hq]

theorem expireGap_of_repeat (ho : x.outcome = none) (hc : carriedCancelPending x s = false) :
    expireGap l x s = beginAttempt l { x with attempt := x.attempt + 1 } s := by
  simp [expireGap, ho, hc]

/-- R55: the attempt after the gap, of an exchange that carries a record. -/
theorem beginAttempt_of_some {tag : Half} (hr : x.record = some tag) :
    beginAttempt l x s =
      { s.onLine l fun ln =>
          { ln with driver := true, exchange := some { x with phase := .transmit, charsSent := 0, timer := none } } with
        pool := { s.pool with
          records := s.pool.records.map fun c =>
            if c.tag = tag then { c with attempts := min (c.attempts + 1) 255 } else c } } := by
  unfold beginAttempt
  rw [onCarried_of_some hr]
  cases l <;> rfl

/-- R17, R64: the gap expires with a disable pending, on an exchange that then ends. -/
theorem gapExpiry_of_pending {n : Nat} {e : Station} (hx : (s.line l).exchange = some x) (hp : x.phase = .gap)
    (hn : x.station = some n) (he : s.station n = some e) (hpe : e.pendingDisable = true) (hd : TagsDistinct s)
    (ends : x.outcome.isSome ∨ ∃ q ∈ s.pool.records, x.record = some q.tag ∧ q.cancelPending = true) :
    ∃ u, exec (.gapExpiry l) (s.setStation n (some { e with pendingDisable := false })) = .next u
      ∧ exec (.gapExpiry l) s = .next (disableDone n u) := by
  refine ⟨_, exec_gapExpiry (by simpa using hx) hp, ?_⟩
  rw [exec_gapExpiry hx hp]
  by_cases ho : x.outcome.isSome
  · rw [expireGap_of_decided ho, expireGap_of_decided ho]
    exact congrArg _ (endExchange_of_pending .id hx hn he hpe hd)
  · obtain ⟨q, hq, hr, hc⟩ := ends.resolve_left ho
    have ho := Option.not_isSome_iff_eq_none.1 ho
    rw [expireGap_of_cancel hd ho hq hr hc, expireGap_of_cancel (by rwa [TagsDistinct, State.setStation_pool]) ho
      (by simpa using hq) hr hc]
    exact congrArg _ (endExchange_of_pending (.completeRecord q .cancelled []) (by simpa using hx) hn he hpe
      ((State.Sheds.refl s).completeRecord.tagsDistinct hd))

end

/-- Settles O45, by the branches of `expireGap`; a pending disable by `gapExpiry_of_pending`. -/
theorem gapsEndOrRepeatExchanges : Obligations.GapsEndOrRepeatExchanges := by
  intro s l x hx hp idle again
  have idleStation (n) : idle.station n = s.station n := State.onLine_station ..
  refine ⟨fun ho hr => ?_, fun q hq hd ho hr hc => ?_, fun q n e hq hd ho hr hc hn he hpe hqn before => ?_,
    fun ho hn => ?_, fun n e hn he hpe hd ends => gapExpiry_of_pending hx hp hn he hpe hd ends,
    fun k n e ho hn he => ?_⟩
  · rw [exec_gapExpiry hx hp, expireGap_of_repeat ho (by simp [carriedCancelPending, hr]),
      beginAttempt_of_none (x := { x with attempt := x.attempt + 1 }) hr]
  · rw [exec_gapExpiry hx hp,
      expireGap_of_repeat ho (by simp [carriedCancelPending, hr, Pool.find_of_mem hd hq, hc]),
      beginAttempt_of_some (x := { x with attempt := x.attempt + 1 }) hr]
  · rw [exec_gapExpiry hx hp, expireGap_of_cancel hd ho hq hr hc, completeRecord_of_oldest _ _ hd hq hqn he before,
      endExchange_of_clear (x := x) (e := { e with busyStreak := 0 }) (hn := hn) (hp := hpe), recordDone_onLine,
      State.setStation_onLine]
    · simpa [recordDone_line] using hx
    · simp [Exchange.result, ho]
    · exact State.station_setStation_same _ _ _ (State.station_lt he)
  · rw [exec_gapExpiry hx hp, expireGap_of_decided ho, endExchange_of_none hx hn]
  · have ends : exec (.gapExpiry l) s = .next (resolveDisable n (stationAnswered n idle)) := by
      rw [exec_gapExpiry hx hp, expireGap_of_decided (by simp [ho]), endExchange_of_station hx hn]
      simp [Exchange.result, ho, applyResult, idle]
    have he' := (idleStation n).trans he
    rw [ends]
    refine ⟨fun hpe => ⟨fun hs => ?_, fun hs => ?_, fun hs => ?_⟩, fun hpe hs hd => ?_⟩
    · have stays : stationAnswered n idle = idle := by rcases hs with hs | hs <;> simp [stationAnswered, he', hs]
      rw [stays, resolveDisable_of_clear he' hpe]
    · simp only [stationAnswered, he', hs, raiseNotice_eq]
      exact congrArg _ (resolveDisable_of_clear (State.station_setStation_same _ _ _ (State.station_lt he)) hpe)
    · have reached : stationAnswered n idle = stationReached n idle := by
        rcases hs with hs | hs <;> simp [stationAnswered, he', hs]
      rw [reached, stationReached_eq he', startPollTimer_eq]
      exact congrArg _ (resolveDisable_of_clear (State.station_setStation_same _ _ _ (State.station_lt he)) hpe)
    · have stays : stationAnswered n idle = idle := by simp [stationAnswered, he', hs]
      rw [stays, resolveDisable_of_pending he' hpe,
        disableTakesEffect_eq (by rwa [TagsDistinct, State.onLine_pool]) he']
      simp only [idle, State.onLine_pool]
      rfl

end Sys2Proof.Machine
end

section
/-! PROOF. Exchanges that are cut off (R65 to R67): what becomes of their work, and the pending disable that follows. -/

namespace Sys2Proof.Machine

/-! ### The work of an exchange takes no account of a pending disable -/

section
variable {n : Nat}

theorem IgnoresDisable.endScan (l : LineId) (status : ScanStatus) : IgnoresDisable n (endScan l status) := fun b s => by
  unfold Machine.endScan
  rw [State.onStation_line]
  split
  · rfl
  · rw [IgnoresDisable.convert, State.onStation_onLine]

theorem IgnoresDisable.rollCallResult (l : LineId) (present : Bool) : IgnoresDisable n (rollCallResult l present) :=
  fun b s => by
  unfold Machine.rollCallResult
  rw [State.onStation_line]
  split
  · rfl
  · split
    · rfl
    · dsimp only
      split
      · rw [State.onStation_onLine, IgnoresDisable.endScan]
      · rw [State.onStation_onLine]

theorem IgnoresDisable.releaseHeld (x : Exchange) : IgnoresDisable n (releaseHeld x) := fun b s => by
  unfold Machine.releaseHeld
  split
  · exact State.onStation_onQueue ..
  · rfl

theorem IgnoresDisable.onNamed (x : Exchange) {f : Station → Station}
    (h : ∀ b e, f (e.markDisable b) = (f e).markDisable b := by exact fun _ _ => rfl) :
    IgnoresDisable n (onNamed x f) :=
  fun b s => by
  unfold Machine.onNamed
  split
  · rfl
  · exact State.onStation_comm s fun _ e => (h b e).symm

theorem IgnoresDisable.giveBack (x : Exchange) : IgnoresDisable n (giveBack x) := fun b s => by
  unfold Machine.giveBack
  rw [State.onStation_pool]
  split
  · rfl
  · split
    · rfl
    · split
      · exact IgnoresDisable.completeRecord _ _ _ b s
      · exact State.onStation_onPool ..

theorem IgnoresDisable.disposeWork (l : LineId) (x : Exchange) : IgnoresDisable n (disposeWork l x) := by
  cases hk : x.kind with
  | poll =>
    intro b s
    simp only [Machine.disposeWork, hk]
    rw [IgnoresDisable.releaseHeld, IgnoresDisable.onNamed]
  | probe =>
    intro b s
    simp only [Machine.disposeWork, hk]
    rw [IgnoresDisable.releaseHeld, IgnoresDisable.onNamed]
  | rollCall =>
    intro b s
    simp only [Machine.disposeWork, hk]
    exact IgnoresDisable.rollCallResult l false b s
  | command => exact fun b s => by simp only [disposeWork_of_record (.inl hk), IgnoresDisable.giveBack x b s]
  | broadcast => exact fun b s => by simp only [disposeWork_of_record (.inr hk), IgnoresDisable.giveBack x b s]

end

/-! ### The exchange stays in flight while its work is disposed of -/

theorem endScan_exchange (l : LineId) (status : ScanStatus) (s : State) :
    ((endScan l status s).line l).exchange = (s.line l).exchange := by
  unfold endScan
  split <;> simp

theorem rollCallResult_exchange (l : LineId) (present : Bool) (s : State) :
    ((rollCallResult l present s).line l).exchange = (s.line l).exchange := by
  unfold rollCallResult
  split
  · rfl
  · split
    · rfl
    · dsimp only
      split <;> simp [endScan_exchange]

theorem releaseHeld_line (x : Exchange) (s : State) (l : LineId) : (releaseHeld x s).line l = s.line l := by
  unfold releaseHeld
  split <;> simp

theorem onNamed_line (x : Exchange) (f : Station → Station) (s : State) (l : LineId) :
    (onNamed x f s).line l = s.line l := by
  unfold onNamed
  split <;> simp

theorem giveBack_line (x : Exchange) (s : State) (l : LineId) : (giveBack x s).line l = s.line l := by
  unfold giveBack
  split
  · rfl
  · split
    · rfl
    · split <;> simp

theorem disposeWork_exchange (l : LineId) (x : Exchange) (s : State) :
    ((disposeWork l x s).line l).exchange = (s.line l).exchange := by
  cases hk : x.kind with
  | poll => simp [disposeWork, hk, onNamed_line, releaseHeld_line]
  | probe => simp [disposeWork, hk, onNamed_line, releaseHeld_line]
  | rollCall => simp [disposeWork, hk, rollCallResult_exchange]
  | command => simp [disposeWork_of_record (.inl hk), giveBack_line]
  | broadcast => simp [disposeWork_of_record (.inr hk), giveBack_line]

/-! ### Cutting off -/

/-- R65: the line whose work is cut off: the driver released, but for one that a character left by RESTART holds
(assumption 9), and a partial frame abandoned. -/
def Line.released (ln : Line) : Line :=
  { ln with
    driver := ln.driver && ln.afterRestart.isSome, assembler := none
    counters := abandonedIf ln.assembler.isSome ln.counters }

section
variable {s : State} {l : LineId} {x : Exchange}

theorem cutOff_begins (l : LineId) (s : State) :
    (endAssembly l s).onLine l (fun ln => { ln with driver := ln.driverOff }) = s.onLine l Line.released := by
  rw [endAssembly_eq, State.onLine_onLine]
  rfl

theorem cutOff_of_none (hx : (s.line l).exchange = none) : cutOff l s = s.onLine l Line.released := by
  unfold cutOff
  rw [cutOff_begins]
  simp [Line.released, hx]

theorem cutOff_of_decided (hx : (s.line l).exchange = some x) (ho : x.outcome.isSome) :
    cutOff l s = endExchange l (s.onLine l Line.released) := by
  unfold cutOff
  rw [cutOff_begins]
  simp [Line.released, hx, ho]

theorem cutOff_of_undecided (hx : (s.line l).exchange = some x) (ho : x.outcome = none) :
    cutOff l s = endExchange l (disposeWork l x (s.onLine l Line.released)) := by
  unfold cutOff
  rw [cutOff_begins]
  simp [Line.released, hx, ho]

/-- R17, R67: a disable that is pending takes effect after the cut-off. -/
theorem cutOff_of_pending {n : Nat} {e : Station} (hx : (s.line l).exchange = some x) (hn : x.station = some n)
    (he : s.station n = some e) (hp : e.pendingDisable = true) (hd : TagsDistinct s) :
    cutOff l s = disableDone n (cutOff l (s.setStation n (some { e with pendingDisable := false }))) := by
  have hx' : ((s.setStation n (some { e with pendingDisable := false })).line l).exchange = some x := by simpa using hx
  have released : IgnoresDisable n (·.onLine l Line.released) := .onLine l _
  have inFlight : ((s.onLine l Line.released).line l).exchange = some x := by
    simpa [Line.released] using hx
  have kept : s.Sheds (s.onLine l Line.released) := (State.Sheds.refl s).onLine
  by_cases ho : x.outcome.isSome
  · rw [cutOff_of_decided hx ho, cutOff_of_decided hx' ho]
    have last := endExchange_of_pending released inFlight hn he hp (kept.tagsDistinct hd)
    exact last
  · have ho := Option.not_isSome_iff_eq_none.1 ho
    rw [cutOff_of_undecided hx ho, cutOff_of_undecided hx' ho]
    have last := endExchange_of_pending ((IgnoresDisable.disposeWork l x).comp released)
      ((disposeWork_exchange ..).trans inFlight) hn he hp (kept.disposeWork.tagsDistinct hd)
    exact last

end

end Sys2Proof.Machine
end

section
/-! PROOF. What a cut-off comes to for each kind of exchange (R65 to R67). -/

namespace Sys2Proof.Machine

section
variable {s : State} {l : LineId} {x : Exchange}

/-! ### The work that is disposed of -/

theorem disposeWork_of_poll (hk : x.kind = .poll) (s : State) :
    disposeWork l x s = onNamed x (fun e => { e with pollDue := true }) (releaseHeld x s) := by simp [disposeWork, hk]

theorem disposeWork_of_probe (hk : x.kind = .probe) (s : State) :
    disposeWork l x s = onNamed x (fun e => { e with probeTimer := some 0 }) (releaseHeld x s) := by
  simp [disposeWork, hk]

theorem disposeWork_of_rollCall (hk : x.kind = .rollCall) : disposeWork l x s = rollCallResult l false s := by
  simp [disposeWork, hk]

theorem giveBack_of_cancel {q : CommandRecord} (hd : TagsDistinct s) (hq : q ∈ s.pool.records)
    (hr : x.record = some q.tag) (hc : q.cancelPending = true) : giveBack x s = completeRecord q .cancelled [] s := by
  simp [giveBack, hr, Pool.find_of_mem hd hq, hc]

theorem giveBack_of_queued {q : CommandRecord} (hd : TagsDistinct s) (hq : q ∈ s.pool.records)
    (hr : x.record = some q.tag) (hc : q.cancelPending = false) :
    giveBack x s = onRecord q.tag (fun r => { r with state := .queued }) s := by
  simp [giveBack, hr, Pool.find_of_mem hd hq, hc]

/-- R136: a roll call's result where no scan waits for it is discarded. -/
theorem rollCallResult_of_not_waiting {present : Bool}
    (h : ∀ sc, (s.line l).scan = some sc → sc.rollCall = false) : rollCallResult l present s = s := by
  cases hs : (s.line l).scan with
  | none => exact rollCallResult_of_none hs
  | some sc => simp [rollCallResult, hs, h sc hs]

/-- R136: the result absent, handed to the scan that waits for it. -/
theorem rollCallResult_of_waiting {sc : Scan} (h : (s.line l).scan = some sc) (hr : sc.rollCall = true) :
    rollCallResult l false s =
      if sc.last < sc.next then
        converted (.scanDone l .complete sc.responders) (s.onLine l fun ln => { ln with scan := none })
      else s.onLine l fun ln => { ln with scan := some { sc with rollCall := false } } := by
  split
  · exact rollCallResult_absent_last h hr ‹_›
  · exact rollCallResult_absent h hr (Nat.not_lt.1 ‹_›)

/-! ### The end of the exchange -/

/-- R64, R67: an exchange with a station that has no disable pending ends once its work is disposed of. -/
theorem cutOff_of_clear {n : Nat} {e : Station} (hx : (s.line l).exchange = some x) (ho : x.outcome = none)
    (hn : x.station = some n) (he : (disposeWork l x (s.onLine l Line.released)).station n = some e)
    (hp : e.pendingDisable = false) :
    cutOff l s = (disposeWork l x (s.onLine l Line.released)).onLine l fun ln => { ln with exchange := none } := by
  rw [cutOff_of_undecided hx ho]
  refine endExchange_of_clear ((disposeWork_exchange ..).trans ?_) hn (by simp [Exchange.result, ho]) he hp
  simpa [Line.released] using hx

theorem cutOff_of_unnamed (hx : (s.line l).exchange = some x) (ho : x.outcome = none) (hn : x.station = none) :
    cutOff l s = (disposeWork l x (s.onLine l Line.released)).onLine l fun ln => { ln with exchange := none } := by
  rw [cutOff_of_undecided hx ho]
  refine endExchange_of_none ((disposeWork_exchange ..).trans ?_) hn
  simpa [Line.released] using hx

/-- R64: the end of an exchange looks at its station and its result, and else at the state around it. -/
theorem endExchange_congr {t : State} {y : Exchange} (hx : (s.line l).exchange = some x)
    (hy : (t.line l).exchange = some y) (station : x.station = y.station) (result : x.result = y.result)
    (around : (s.onLine l fun ln => { ln with exchange := none }) = t.onLine l fun ln => { ln with exchange := none }) :
    endExchange l s = endExchange l t := by
  simp only [endExchange, hx, hy, station, result, around]

/-- R66: a decided exchange that is cut off ends as at the expiry of its gap. -/
theorem gapExpiry_of_released (hx : (s.line l).exchange = some x) (ho : x.outcome.isSome) :
    exec (.gapExpiry l) (s.onLine l fun ln => { ln.released with exchange := some { x with phase := .gap } })
      = .next (cutOff l s) := by
  have inGap : ((s.onLine l fun ln => { ln.released with exchange := some { x with phase := .gap } }).line l).exchange
      = some { x with phase := .gap } := by simp
  have inFlight : ((s.onLine l Line.released).line l).exchange = some x := by simpa [Line.released] using hx
  rw [exec_gapExpiry inGap rfl, expireGap_of_decided (x := { x with phase := .gap }) ho, cutOff_of_decided hx ho]
  refine congrArg _ (endExchange_congr inGap inFlight rfl rfl ?_)
  rw [State.onLine_onLine, State.onLine_onLine]

/-! ### Kind by kind -/

theorem releaseHeld_station (x : Exchange) (s : State) (n : Nat) : (releaseHeld x s).station n = s.station n := by
  unfold releaseHeld
  split <;> simp

/-- R67: an exchange that holds a reservation releases it and leaves its mark in the entry. -/
theorem cutOff_of_held {n : Nat} {e : Station} {f : Station → Station} (hx : (s.line l).exchange = some x)
    (ho : x.outcome = none) (hn : x.station = some n) (he : s.station n = some e) (hp : (f e).pendingDisable = false)
    (hr : x.holdsReservation = true) (disposes : ∀ t, disposeWork l x t = onNamed x f (releaseHeld x t)) :
    cutOff l s =
      { (s.onLine l fun ln => { ln.released with exchange := none }).setStation n (some (f e)) with
        queue := { s.queue with reservations := s.queue.reservations - 1 } } := by
  have marked : disposeWork l x (s.onLine l Line.released)
      = (releaseHeld x (s.onLine l Line.released)).setStation n (some (f e)) := by
    rw [disposes, onNamed_of_station hn ((releaseHeld_station ..).trans ((State.onLine_station ..).trans he))]
  have entry : (disposeWork l x (s.onLine l Line.released)).station n = some (f e) := by
    rw [marked, State.station_setStation_same _ _ _ (State.station_lt he)]
  rw [cutOff_of_clear hx ho hn entry hp, marked, releaseHeld_eq hr]
  unfold State.setStation
  split <;> cases l <;> rfl

theorem onRecord_onLine (tag : Half) (f : CommandRecord → CommandRecord) (g h : Line → Line) :
    (onRecord tag f (s.onLine l g)).onLine l h =
      { s.onLine l fun ln => h (g ln) with
        pool := { s.pool with records := s.pool.records.map fun c => if c.tag = tag then f c else c } } := by
  cases l <;> rfl

end

/-- Settles O47, by the kind of the exchange. -/
theorem cutOffExchangesGiveTheirWorkBack : Obligations.CutOffExchangesGiveTheirWorkBack := by
  intro s l hd
  have hd' : TagsDistinct (s.onLine l Line.released) := (State.Sheds.refl s).onLine.tagsDistinct hd
  refine ⟨cutOff_of_none, fun x hx => ⟨gapExpiry_of_released hx, fun n e hn he hp => cutOff_of_pending hx hn he hp hd,
    fun ho => ⟨fun n e hn he hp => ⟨fun hk hr => ?_, fun hk hr => ?_, fun q hq hk hr hc hqn before => ?_,
      fun q hq hk hr hc => ?_⟩, fun q hq hk hn hr hqn => ?_, fun hk hn hs => ?_, fun sc hk hn hs hr => ?_⟩⟩⟩
  · exact cutOff_of_held (f := fun e => { e with pollDue := true }) hx ho hn he hp hr (disposeWork_of_poll hk)
  · exact cutOff_of_held (f := fun e => { e with probeTimer := some 0 }) hx ho hn he hp hr (disposeWork_of_probe hk)
  · have completes : disposeWork l x (s.onLine l Line.released)
        = recordDone q .cancelled [] ((s.onLine l Line.released).setStation n (some { e with busyStreak := 0 })) := by
      rw [disposeWork_of_record (.inl hk), giveBack_of_cancel hd' (by simpa using hq) hr hc]
      exact completeRecord_of_oldest _ _ hd' (by simpa using hq) hqn (by simpa using he)
        (by simpa using before)
    rw [cutOff_of_clear hx ho hn (e := { e with busyStreak := 0 }) (hp := hp), completes, recordDone_onLine,
      State.setStation_onLine, State.onLine_onLine]
    · rfl
    · rw [completes]
      exact State.station_setStation_same _ _ _ (State.station_lt he)
  · have returns : disposeWork l x (s.onLine l Line.released)
        = onRecord q.tag (fun r => { r with state := .queued }) (s.onLine l Line.released) := by
      rw [disposeWork_of_record (.inl hk), giveBack_of_queued hd' (by simpa using hq) hr hc]
    rw [cutOff_of_clear hx ho hn (e := e) (hp := hp), returns]
    · exact onRecord_onLine ..
    · rw [returns]
      simpa using he
  · rw [cutOff_of_unnamed hx ho hn, disposeWork_of_record (.inr hk)]
    cases hc : q.cancelPending with
    | true =>
      rw [giveBack_of_cancel hd' (by simpa using hq) hr hc, completeRecord_eq _ _ _ hd']
      simp only [resetBusyStreak, hqn, if_true]
      rw [recordDone_onLine, State.onLine_onLine]
      rfl
    | false =>
      rw [giveBack_of_queued hd' (by simpa using hq) hr hc]
      exact onRecord_onLine ..
  · rw [cutOff_of_unnamed hx ho hn, disposeWork_of_rollCall hk,
      rollCallResult_of_not_waiting (by simpa [Line.released] using hs), State.onLine_onLine]
    rfl
  · rw [cutOff_of_unnamed hx ho hn, disposeWork_of_rollCall hk,
      rollCallResult_of_waiting (by simpa [Line.released] using hs) hr]
    split <;> cases l <;> rfl

end Sys2Proof.Machine
end

section
/-! PROOF. The record of errors (R8, R19, R53): what a step that may end an attempt does to it, and
CLEAR_STATION_ERRORS. -/

namespace Sys2Proof.Machine

/-! ### What leaves the station table alone -/

section
variable (l : LineId) (x : Exchange) (s : State) (n : Nat)

theorem onExchange_station (f : Exchange → Exchange) : (onExchange l f s).station n = s.station n := by
  simp [onExchange]

theorem decideOutcome_station (o : ExchangeOutcome) : (decideOutcome l o s).station n = s.station n :=
  onExchange_station ..

theorem enterGap_station : (enterGap l s).station n = s.station n := by simp [enterGap]

theorem onCarried_station (f : CommandRecord → CommandRecord) : (onCarried x f s).station n = s.station n := by
  unfold onCarried
  split <;> simp

theorem endScan_station (status : ScanStatus) : (endScan l status s).station n = s.station n := by
  unfold endScan
  split <;> simp

theorem rollCallResult_station (present : Bool) : (rollCallResult l present s).station n = s.station n := by
  unfold rollCallResult
  split
  · rfl
  · split
    · rfl
    · dsimp only
      split <;> simp [endScan_station]

theorem endRollCall_station (present : Bool) : (endRollCall l present s).station n = s.station n := by
  simp [endRollCall, enterGap_station, decideOutcome_station, rollCallResult_station]

theorem captureFrame_station (h : HandedUp) : (captureFrame l h s).station n = s.station n := by
  unfold captureFrame
  split <;> simp [countLine]

theorem endTest_station (status : TestStatus) : (endTest l status s).station n = s.station n := by
  unfold endTest
  split <;> simp [raiseLineNotice, endAssembly]

theorem judgeTest_station (matched : Bool) : (judgeTest l matched s).station n = s.station n := by
  unfold judgeTest
  split
  · rfl
  · dsimp only
    split <;> split <;> simp [endTest_station]

theorem testHandedUp_station (h : HandedUp) : (testHandedUp l h s).station n = s.station n := by
  unfold testHandedUp
  split
  · rfl
  · split <;> simp [judgeTest_station]

end

/-! ### What leaves the record of errors alone -/

/-- R8, R9: what CLEAR_STATION_ERRORS clears, of the counters the one that a failed attempt raises. -/
def Station.errors (e : Station) : Option FailureKind × Half × Nat :=
  (e.lastFailure, e.sticky, e.counters.attemptsFailed)

/-- The record of errors of station n is as it was. -/
def State.ErrorsKept (n : Nat) (s t : State) : Prop :=
  (t.station n).map Station.errors = (s.station n).map Station.errors

section
variable {n : Nat} {s t : State} {x : Exchange}

theorem State.ErrorsKept.refl : s.ErrorsKept n s := rfl

theorem State.ErrorsKept.of_station (h : s.ErrorsKept n t) {u : State} (hu : u.station n = t.station n) :
    s.ErrorsKept n u := by
  unfold State.ErrorsKept
  rw [hu]
  exact h

theorem State.ErrorsKept.onStation (h : s.ErrorsKept n t) {m : Nat} {f : Station → Station}
    (hf : ∀ e, (f e).errors = e.errors := by exact fun _ => rfl) : s.ErrorsKept n (t.onStation m f) := by
  by_cases hm : n = m
  · subst hm
    have same : Station.errors ∘ f = Station.errors := funext hf
    unfold State.ErrorsKept
    rw [State.station_onStation_same, Option.map_map, same]
    exact h
  · exact h.of_station (State.station_onStation_ne _ _ hm)

theorem State.ErrorsKept.onNamed (h : s.ErrorsKept n t) {f : Station → Station}
    (hf : ∀ e, (f e).errors = e.errors := by exact fun _ => rfl) : s.ErrorsKept n (onNamed x f t) := by
  unfold Machine.onNamed
  split
  · exact h
  · exact h.onStation hf

theorem State.ErrorsKept.releaseHeld (h : s.ErrorsKept n t) : s.ErrorsKept n (releaseHeld x t) :=
  h.of_station (releaseHeld_station ..)

theorem State.ErrorsKept.completeRecord (h : s.ErrorsKept n t) {r : CommandRecord} {o : CommandOutcome}
    {d : List Byte} : s.ErrorsKept n (completeRecord r o d t) := by
  have kept : t.ErrorsKept n (Machine.completeRecord r o d t) := by
    rcases completeRecord_station r o d t n with hr | hr
    · exact State.ErrorsKept.refl.of_station hr
    · unfold State.ErrorsKept
      rw [hr, Option.map_map]
      rfl
  exact Eq.trans kept h

theorem State.ErrorsKept.completeCarried (h : s.ErrorsKept n t) {o : CommandOutcome} {d : List Byte} :
    s.ErrorsKept n (completeCarried x o d t) := by
  unfold Machine.completeCarried
  split
  · exact h
  · split
    · exact h
    · exact h.completeRecord

theorem State.ErrorsKept.giveBack (h : s.ErrorsKept n t) : s.ErrorsKept n (giveBack x t) := by
  unfold Machine.giveBack
  split
  · exact h
  · split
    · exact h
    · split
      · exact h.completeRecord
      · exact h.of_station (onRecord_station ..)

theorem State.ErrorsKept.acceptData (h : s.ErrorsKept n t) {d : List Byte} : s.ErrorsKept n (acceptData x d t) := by
  unfold Machine.acceptData
  split
  · exact h
  · exact State.ErrorsKept.onStation (h.of_station (convert_station ..))

theorem State.ErrorsKept.acceptProbe (h : s.ErrorsKept n t) {l : LineId} {k : ReplyKind} {d : List Byte} :
    s.ErrorsKept n (acceptProbe l x k d t) := by
  unfold Machine.acceptProbe
  split
  · exact h.acceptData
  · exact h.releaseHeld.onNamed
  · exact h.releaseHeld.onNamed

theorem State.ErrorsKept.acceptPoll (h : s.ErrorsKept n t) {l : LineId} {k : ReplyKind} {d : List Byte} :
    s.ErrorsKept n (acceptPoll l x k d t) := by
  unfold Machine.acceptPoll
  refine State.ErrorsKept.onNamed ?_
  split
  · exact h.acceptData
  · exact h.releaseHeld.onNamed
  · exact h.releaseHeld.onNamed

theorem State.ErrorsKept.acceptCommand (h : s.ErrorsKept n t) {o : CommandOutcome} {d : List Byte} :
    s.ErrorsKept n (acceptCommand x o d t) := h.completeCarried.onNamed

theorem State.ErrorsKept.exchangeFailed (h : s.ErrorsKept n t) {l : LineId} :
    s.ErrorsKept n (exchangeFailed l x t) := by
  refine State.ErrorsKept.of_station ?_ (decideOutcome_station ..)
  split
  · exact h.releaseHeld.onNamed
  · exact h.releaseHeld
  · exact h.completeCarried
  · exact h
  · exact h

end

/-! ### What enters the record of errors (R53) -/

section
variable {n : Nat} {s : State} {l : LineId} {x : Exchange}

/-- R53: a failed attempt with station n records its kind there. -/
theorem failAttempt_errors (hx : (s.line l).exchange = some x) (k : FailureKind) :
    ((failAttempt l k s).station n).map Station.errors
      = (s.station n).map fun e => if x.station = some n then (e.recordFailure k).errors else e.errors := by
  have recorded : ((recordFailedAttempt l x k s).station n).map Station.errors
      = (s.station n).map fun e => if x.station = some n then (e.recordFailure k).errors else e.errors := by
    simp only [recordFailedAttempt, countLine, State.onLine_station]
    cases hs : x.station with
    | none => simp [onNamed, hs, onCarried_station, onExchange_station]
    | some m =>
      by_cases hm : n = m
      · subst hm
        simp [onNamed, hs, onCarried_station, onExchange_station]
        rfl
      · have hne : ¬m = n := fun h => hm h.symm
        simp [onNamed, hs, onCarried_station, onExchange_station, hm, hne]
  have kept : (recordFailedAttempt l x k s).ErrorsKept n (failAttempt l k s) := by
    simp only [failAttempt, hx]
    refine State.ErrorsKept.of_station ?_ (enterGap_station ..)
    split
    · exact .refl
    · exact State.ErrorsKept.refl.exchangeFailed
  exact kept.trans recorded

/-- What a step that ends at most one attempt does to the record of errors of station n: no failure enters it, or one
does. -/
def State.MayFail (n : Nat) (s t : State) : Prop :=
  (t.station n).map (·.lastFailure) = (s.station n).map (·.lastFailure)
    ∨ ∃ k, (t.station n).map Station.errors = (s.station n).map fun e => (e.recordFailure k).errors

theorem State.ErrorsKept.lastFailure {t : State} (h : s.ErrorsKept n t) :
    (t.station n).map (·.lastFailure) = (s.station n).map (·.lastFailure) := by
  have := congrArg (Option.map Prod.fst) h
  simpa [Option.map_map, Function.comp_def, Station.errors] using this

theorem State.ErrorsKept.mayFail {t : State} (h : s.ErrorsKept n t) : s.MayFail n t := .inl h.lastFailure

/-- R62: also the busy limit, which enters the set, is no failure of an attempt. -/
theorem busyDisposition_lastFailure (streak : Nat) :
    ((busyDisposition l x streak s).station n).map (·.lastFailure) = (s.station n).map (·.lastFailure) := by
  by_cases hlimit : (s.line l).config.busyLimit ≤ streak
  · have carried : s.ErrorsKept n (completeCarried x .stationBusy [] s) := State.ErrorsKept.refl.completeCarried
    rw [← carried.lastFailure]
    simp only [busyDisposition, if_pos hlimit, onNamed]
    split
    · rfl
    · rename_i m _
      by_cases hm : n = m
      · subst hm
        rw [State.station_onStation_same, Option.map_map]
        rfl
      · rw [State.station_onStation_ne _ _ hm]
  · rw [busyDisposition_of_lt hlimit]
    exact State.ErrorsKept.refl.giveBack.lastFailure

theorem acceptCommandBusy_lastFailure :
    ((acceptCommandBusy l x s).station n).map (·.lastFailure) = (s.station n).map (·.lastFailure) := by
  unfold acceptCommandBusy
  split
  · rfl
  · rename_i m _
    split
    · rfl
    · rename_i e he
      dsimp only
      rw [busyDisposition_lastFailure]
      by_cases hm : n = m
      · subst hm
        rw [State.station_setStation_same _ _ _ (State.station_lt he), he]
        rfl
      · rw [State.station_setStation_ne _ _ hm]

theorem acceptReply_lastFailure (k : ReplyKind) (d : List Byte) :
    ((acceptReply l x k d s).station n).map (·.lastFailure) = (s.station n).map (·.lastFailure) := by
  unfold acceptReply
  rw [decideOutcome_station]
  split
  · exact State.ErrorsKept.refl.acceptPoll.lastFailure
  · exact State.ErrorsKept.refl.acceptProbe.lastFailure
  · exact acceptCommandBusy_lastFailure
  · exact State.ErrorsKept.refl.acceptCommand.lastFailure
  · exact State.ErrorsKept.refl.acceptCommand.lastFailure
  · rfl
  · rfl

theorem failAttempt_mayFail (hx : (s.line l).exchange = some x) (k : FailureKind) :
    s.MayFail n (failAttempt l k s) := by
  by_cases hn : x.station = some n
  · exact .inr ⟨k, by simpa [hn] using failAttempt_errors (n := n) hx k⟩
  · exact State.ErrorsKept.mayFail (by simpa [State.ErrorsKept, hn] using failAttempt_errors (n := n) hx k)

theorem judgeReply_mayFail (h : HandedUp) : s.MayFail n (judgeReply l h s) := by
  unfold judgeReply
  split
  · exact .inl rfl
  · rename_i x hx
    split
    · exact .inl rfl
    · split
      · exact .inl (congrArg _ (endRollCall_station ..))
      · exact failAttempt_mayFail hx _
      · exact failAttempt_mayFail hx _
      · exact .inl ((congrArg _ (enterGap_station ..)).trans (acceptReply_lastFailure ..))

/-- R38: what a frame handed up does, in each mode. -/
theorem handUp_mayFail (h : HandedUp) : s.MayFail n (handUp l h s) := by
  unfold handUp
  split
  · exact .inl rfl
  · exact judgeReply_mayFail h
  · exact .inl (congrArg _ (captureFrame_station ..))
  · exact .inl (congrArg _ (testHandedUp_station ..))

theorem State.MayFail.of_station {t u : State} (h : t.MayFail n u) (ht : t.station n = s.station n) :
    s.MayFail n u := by
  unfold State.MayFail
  rw [← ht]
  exact h

theorem abandonFrame_mayFail (cs : List Byte) (fe : Bool) (c : AbandonCause) :
    s.MayFail n (abandonFrame l cs fe c s) := (handUp_mayFail _).of_station (State.onLine_station ..)

theorem takeCharacter_mayFail (k : CharacterClass) (byte : Byte) (fe : Bool) :
    s.MayFail n (takeCharacter l k byte fe s) := by
  have heard : (receiveCharacter l fe s).station n = s.station n := State.onLine_station ..
  cases k with
  | stray => exact .inl (congrArg _ (State.onLine_station ..))
  | added => exact .inl (congrArg _ ((State.onLine_station ..).trans heard))
  | tooLong => exact (abandonFrame_mayFail ..).of_station heard
  | completes => exact ((handUp_mayFail _).of_station (State.onLine_station ..)).of_station heard
  | begins =>
    refine State.MayFail.of_station ?_ heard
    show State.MayFail n _ (beginFrame l byte fe _)
    unfold beginFrame
    split
    · exact .inl (congrArg _ ((onExchange_station ..).trans (State.onLine_station ..)))
    · exact (handUp_mayFail _).of_station ((State.onLine_station ..).trans (State.onLine_station ..))

theorem characterEvent_mayFail (k : CharacterClass) (byte : Byte) (mark fe : Bool) :
    s.MayFail n (characterEvent l k byte mark fe s) := by
  unfold characterEvent
  split
  · exact takeCharacter_mayFail ..
  · exact .inl rfl

/-- R46: in AWAIT an exchange with a station fails. -/
theorem exec_replyStartTimeout (hx : (s.line l).exchange = some x) (hp : x.phase = .await) (hk : x.kind ≠ .rollCall) :
    exec (.replyStartTimeout l) s = .next (failAttempt l .timeout s) := by
  show execReplyStartTimeout l s = _
  simp [execReplyStartTimeout, exchangeIn, hx, Option.filter, hp, hk]

theorem exec_replyStartTimeout_mayFail {t : State} (h : exec (.replyStartTimeout l) s = .next t) : s.MayFail n t := by
  obtain rfl := Host.Outcome.next.inj h
  split
  · exact .inl rfl
  · rename_i x hx
    split
    · exact .inl (congrArg _ (endRollCall_station ..))
    · exact failAttempt_mayFail (Option.filter_eq_some_iff.1 hx).1 _

/-- The commands that may end an attempt with a failure each end at most one. -/
theorem exec_mayFail {byte : Byte} {fe : Bool} {c : Instr} {t : State}
    (hc : c ∈ [Instr.replyStartTimeout l, .addressCharacterReceived l byte fe, .lengthAbandon l byte fe,
      .intercharacterTimeout l, .frameReceived l byte fe]) (h : exec c s = .next t) : s.MayFail n t := by
  simp only [List.mem_cons, List.not_mem_nil, or_false] at hc
  rcases hc with rfl | rfl | rfl | rfl | rfl
  · exact exec_replyStartTimeout_mayFail h
  · exact Host.Outcome.next.inj h ▸ characterEvent_mayFail ..
  · exact Host.Outcome.next.inj h ▸ characterEvent_mayFail ..
  · obtain rfl := Host.Outcome.next.inj h
    split
    · exact .inl rfl
    · exact abandonFrame_mayFail ..
  · exact Host.Outcome.next.inj h ▸ characterEvent_mayFail ..

end

/-! ### CLEAR_STATION_ERRORS -/

theorem answered_line (r : Request) (st : Status) (d : List Byte) (s : State) (l : LineId) :
    (answered r st d s).line l = s.line l := by cases l <;> rfl

/-- R19: the entry with its record of errors emptied, and with the flag its counters. -/
def Station.cleared (flag : Byte) (e : Station) : Station :=
  { e with
    sticky := 0, lastFailure := none
    counters := if flag = 0 then e.counters else ⟨0, 0, 0, 0, 0, 0⟩ }

/-- R8, R53: the record of errors after the first failure that enters an emptied one. -/
theorem errors_of_recordFailure {flag : Byte} {e f : Station} {k : FailureKind}
    (h : f.errors = ((e.cleared flag).recordFailure k).errors) :
    f.lastFailure = some k ∧ f.sticky = 1#16 <<< (k.code - 1) ∧ (flag ≠ 0 → f.counters.attemptsFailed = 1) := by
  simp only [Station.errors, Prod.mk.injEq] at h
  obtain ⟨last, sticky, failed⟩ := h
  refine ⟨last, ?_, fun hf => ?_⟩
  · rw [sticky]
    show (0#16 ||| _) = _
    simp
  · rw [failed]
    simp only [Station.recordFailure, Station.cleared, if_neg hf]
    rfl

section
variable {s : State} {r : Request} {rest : List Request} {n flag : Byte}

theorem exec_clearStationErrors (h : Handed s r rest) (hb : r.body = [0x16#8, n, flag]) :
    exec .clearStationErrors s =
      .next
        (stationRequest r rest n s fun e =>
          answered r .ok [] ((headTaken rest s).setStation n.toNat (some (e.cleared flag)))) := by
  have hc : requestCode r.body = some 0x16 := by rw [hb]; rfl
  have hl : lengthFits r.body = true := by rw [hb]; rfl
  have hn : u8At r.body 1 = n.toNat := by rw [hb]; rfl
  have hflag : (flagAt r.body 2 = true) = (flag ≠ 0) := by
    have : u8At r.body 2 = flag.toNat := by rw [hb]; rfl
    rw [flagAt, this, decide_eq_true_eq, eq_iff_iff]
    bv_omega
  refine congrArg Host.Outcome.next (takeRequest_of_withStation h hc hl (by decide) hn rfl fun e _ => ⟨_, _, rfl, ?_⟩)
  simp only [hflag, Station.cleared, ite_not]
  rfl

theorem exec_clearStationErrors_of_some {e : Station} (h : Handed s r rest) (hb : r.body = [0x16#8, n, flag])
    (he : s.station n.toNat = some e) :
    exec .clearStationErrors s =
      .next (answered r .ok [] ((headTaken rest s).setStation n.toNat (some (e.cleared flag)))) := by
  have hn := State.station_lt he
  rw [exec_clearStationErrors h hb, stationRequest_of_some (by omega) he]

end

/-- Settles O21; a later failure enters the emptied record by `exec_mayFail`. -/
theorem clearStationErrorsClearsTheRecord : Obligations.ClearStationErrorsClearsTheRecord := by
  intro s r rest n flag h hb
  let cleared (e : Station) := answered r .ok [] ((headTaken rest s).setStation n.toNat (some (e.cleared flag)))
  have entry {e} (he : s.station n.toNat = some e) : (cleared e).station n.toNat = some (e.cleared flag) :=
    State.station_setStation_same _ _ _ (State.station_lt he)
  refine ⟨exec_clearStationErrors h hb, fun e l x he hx hn hp hk => ?_, fun l byte fe c t u f k hn hc ht hu hf hk => ?_⟩
  · have hx' : ((cleared e).line l).exchange = some x := by
      show ((answered r .ok [] _).line l).exchange = _
      rw [answered_line, State.setStation_line, headTaken_line, hx]
    have failed := failAttempt_errors (n := n.toNat) hx' .timeout
    simp only [entry he, hn, if_true, Option.map_some, Option.map_eq_some_iff] at failed
    obtain ⟨f, hf, errors⟩ := failed
    obtain ⟨last, sticky, count⟩ := errors_of_recordFailure errors
    exact ⟨_, _, f, exec_clearStationErrors_of_some h hb he, exec_replyStartTimeout hx' hp hk, hf, sticky, last, count⟩
  · cases he : s.station n.toNat with
    | none =>
      rw [exec_clearStationErrors h hb, stationRequest_of_none (by omega) he] at ht
      obtain rfl := Host.Outcome.next.inj ht
      have undefined : (refusedWith r rest .noStation s).station n.toNat = none := he
      rcases exec_mayFail (n := n.toNat) hc hu with kept | ⟨j, failed⟩
      · simp [hf, undefined] at kept
      · simp [hf, undefined] at failed
    | some e =>
      rw [exec_clearStationErrors_of_some h hb he] at ht
      obtain rfl := Host.Outcome.next.inj ht
      rcases exec_mayFail (n := n.toNat) hc hu with kept | ⟨j, failed⟩
      · rw [hf, entry he] at kept
        exact absurd (hk.symm.trans (Option.some.inj kept)) (by simp [Station.cleared])
      · rw [hf, entry he] at failed
        obtain ⟨last, sticky, count⟩ := errors_of_recordFailure (Option.some.inj failed)
        obtain rfl := Option.some.inj (hk.symm.trans last)
        exact ⟨sticky, count⟩

end Sys2Proof.Machine
end

section
/-! SUPPORT. The work of a line, its end, and what it does to stations and records take no account of the host link, the
outputs and the rest of the part, and keep them: each such operation commutes with a change of them. -/

namespace Sys2Proof.Machine

/-- The state `s` with the host link, the outputs, the commands waiting and the power-on reset of `k`. -/
def State.framed (s k : State) : State :=
  { s with link := k.link, outputs := k.outputs, pending := k.pending, inReset := k.inReset, freeCount := k.freeCount }

section
variable (s k : State) (l : LineId) (n : Nat) (x : Exchange)

@[simp] theorem State.framed_station : (s.framed k).station n = s.station n := rfl
@[simp] theorem State.framed_line : (s.framed k).line l = s.line l := by cases l <;> rfl
@[simp] theorem State.framed_pool : (s.framed k).pool = s.pool := rfl
@[simp] theorem State.onLine_framed (f : Line → Line) : (s.framed k).onLine l f = (s.onLine l f).framed k := by
  cases l <;> rfl
@[simp] theorem State.onPool_framed (f : Pool → Pool) : (s.framed k).onPool f = (s.onPool f).framed k := rfl
@[simp] theorem State.onQueue_framed (f : ReportQueue → ReportQueue) :
    (s.framed k).onQueue f = (s.onQueue f).framed k := rfl
@[simp] theorem State.setStation_framed (e : Option Station) :
    (s.framed k).setStation n e = (s.setStation n e).framed k := by
  unfold State.setStation
  split <;> rfl
@[simp] theorem State.onStation_framed (f : Station → Station) :
    (s.framed k).onStation n f = (s.onStation n f).framed k := by
  unfold State.onStation
  rw [State.framed_station]
  split <;> simp

/-! ### Records and stations -/

@[simp] theorem convert_framed (r : Report) : convert r (s.framed k) = (convert r s).framed k := rfl
@[simp] theorem onRecord_framed (tag : Half) (f : CommandRecord → CommandRecord) :
    onRecord tag f (s.framed k) = (onRecord tag f s).framed k := rfl
@[simp] theorem leaveProbeLists_framed : leaveProbeLists n (s.framed k) = (leaveProbeLists n s).framed k := rfl
@[simp] theorem joinProbeList_framed : joinProbeList l n (s.framed k) = (joinProbeList l n s).framed k :=
  State.onLine_framed ..

@[simp] theorem resetBusyStreak_framed (r : CommandRecord) (b : Bool) :
    resetBusyStreak r b (s.framed k) = (resetBusyStreak r b s).framed k := by
  unfold resetBusyStreak
  split
  · rfl
  · split <;> simp

@[simp] theorem completeRecord_framed (r : CommandRecord) (o : CommandOutcome) (d : List Byte) :
    completeRecord r o d (s.framed k) = (completeRecord r o d s).framed k := by simp [completeRecord]

@[simp] theorem completeRecords_framed (rs : List CommandRecord) (o : CommandOutcome) :
    completeRecords rs o (s.framed k) = (completeRecords rs o s).framed k := by
  unfold completeRecords
  induction rs generalizing s with
  | nil => rfl
  | cons r rs ih => simp [ih]

@[simp] theorem completeAllOf_framed (o : CommandOutcome) :
    completeAllOf n o (s.framed k) = (completeAllOf n o s).framed k := by simp [completeAllOf]

@[simp] theorem resyncRelease_framed : resyncRelease n (s.framed k) = (resyncRelease n s).framed k := by
  simp [resyncRelease]

@[simp] theorem enterProbing_framed : enterProbing n (s.framed k) = (enterProbing n s).framed k := by
  unfold enterProbing
  rw [State.framed_station]
  split <;> simp

@[simp] theorem disableTakesEffect_framed :
    disableTakesEffect n (s.framed k) = (disableTakesEffect n s).framed k := by
  simp [disableTakesEffect, enterDisabled]

@[simp] theorem resolveDisable_framed : resolveDisable n (s.framed k) = (resolveDisable n s).framed k := by
  unfold resolveDisable
  rw [State.framed_station]
  split
  · rfl
  · split <;> simp

@[simp] theorem stationAnswered_framed : stationAnswered n (s.framed k) = (stationAnswered n s).framed k := by
  unfold stationAnswered
  rw [State.framed_station]
  split
  · rfl
  · split <;> simp [stationReached]

@[simp] theorem enterOffline_framed : enterOffline n (s.framed k) = (enterOffline n s).framed k := by
  unfold enterOffline
  rw [State.framed_station]
  split
  · rfl
  · split <;> simp

@[simp] theorem failOver_framed : failOver n (s.framed k) = (failOver n s).framed k := by
  unfold failOver
  rw [State.framed_station]
  split <;> simp [moveRecords]

theorem failoverPossible_framed (e : Station) : failoverPossible e (s.framed k) = failoverPossible e s := by
  simp [failoverPossible]

@[simp] theorem loseStation_framed : loseStation n (s.framed k) = (loseStation n s).framed k := by simp [loseStation]

@[simp] theorem compareThreshold_framed : compareThreshold n (s.framed k) = (compareThreshold n s).framed k := by
  unfold compareThreshold
  rw [State.framed_station]
  split
  · rfl
  · rw [failoverPossible_framed]
    split
    · split <;> simp
    · rfl

@[simp] theorem stationFailed_framed : stationFailed n (s.framed k) = (stationFailed n s).framed k := by
  unfold stationFailed
  rw [State.framed_station]
  split
  · rfl
  · dsimp only
    split <;> simp

/-! ### The work of a line -/

@[simp] theorem applyResult_framed (r : ExchangeResult) :
    applyResult n r (s.framed k) = (applyResult n r s).framed k := by
  cases r <;> simp [applyResult]

@[simp] theorem endExchange_framed : endExchange l (s.framed k) = (endExchange l s).framed k := by
  unfold endExchange
  rw [State.framed_line]
  split
  · rfl
  · dsimp only
    split <;> simp

@[simp] theorem endScan_framed (status : ScanStatus) :
    endScan l status (s.framed k) = (endScan l status s).framed k := by
  unfold endScan
  rw [State.framed_line]
  split <;> simp

@[simp] theorem rollCallResult_framed (present : Bool) :
    rollCallResult l present (s.framed k) = (rollCallResult l present s).framed k := by
  unfold rollCallResult
  rw [State.framed_line]
  split
  · rfl
  · split
    · rfl
    · dsimp only
      split <;> simp

@[simp] theorem releaseHeld_framed : releaseHeld x (s.framed k) = (releaseHeld x s).framed k := by
  unfold releaseHeld
  split <;> rfl

@[simp] theorem onNamed_framed (f : Station → Station) : onNamed x f (s.framed k) = (onNamed x f s).framed k := by
  unfold onNamed
  split <;> simp

@[simp] theorem giveBack_framed : giveBack x (s.framed k) = (giveBack x s).framed k := by
  unfold giveBack
  rw [State.framed_pool]
  split
  · rfl
  · split
    · rfl
    · split <;> simp

@[simp] theorem disposeWork_framed : disposeWork l x (s.framed k) = (disposeWork l x s).framed k := by
  cases hk : x.kind with
  | poll => simp [disposeWork_of_poll hk]
  | probe => simp [disposeWork_of_probe hk]
  | rollCall => simp [disposeWork_of_rollCall hk]
  | command => simp [disposeWork_of_record (.inl hk)]
  | broadcast => simp [disposeWork_of_record (.inr hk)]

@[simp] theorem cutOff_framed : cutOff l (s.framed k) = (cutOff l s).framed k := by
  unfold cutOff
  simp only [cutOff_begins, State.onLine_framed, State.framed_line]
  split
  · rfl
  · split <;> simp

@[simp] theorem endTest_framed (status : TestStatus) :
    endTest l status (s.framed k) = (endTest l status s).framed k := by
  unfold endTest
  rw [State.framed_line]
  split <;> simp [raiseLineNotice, endAssembly]

/-! ### RESET_LINE -/

@[simp] theorem endWorkForReset_framed : endWorkForReset l (s.framed k) = (endWorkForReset l s).framed k := by
  unfold endWorkForReset
  rw [State.framed_line]
  split <;> simp

@[simp] theorem resetStation_framed : resetStation l (s.framed k) n = (resetStation l s n).framed k := by
  unfold resetStation
  rw [State.framed_station]
  split
  · rfl
  · split <;> simp

@[simp] theorem foldl_resetStation_framed (ns : List Nat) :
    ns.foldl (resetStation l) (s.framed k) = (ns.foldl (resetStation l) s).framed k := by
  induction ns generalizing s with
  | nil => rfl
  | cons n ns ih => simp [ih]

theorem resetLineNow_framed : resetLineNow l (s.framed k) = (resetLineNow l s).framed k := by
  simp [resetLineNow, raiseLineNotice]

end

/-- R168: the head leaves the intake, and nothing of a request's work looks at that. -/
theorem headTaken_eq_framed (rest : List Request) (s : State) : headTaken rest s = s.framed (headTaken rest s) := rfl

end Sys2Proof.Machine
end

section
/-! PROOF. RESET_LINE (R131): the stations of the line, one after another, enter PROBING. -/

namespace Sys2Proof.Machine

/-! ### One station -/

/-- R131: the station is one that RESET_LINE of the line brings into PROBING. -/
def State.resets (s : State) (l : LineId) (n : Nat) : Bool :=
  (s.station n).any fun e => e.current == l && e.state != .disabled

/-- R6, R123: the entry that RESET_LINE leaves. -/
def Station.lineReset (e : Station) : Station := noticed { e.toProbing with pendingDisable := false } .lineReset

/-- R115: the records of station n with the transmitted flag set. -/
def Pool.transmittedOf (p : Pool) (n : Nat) : List CommandRecord :=
  p.records.filter fun q => q.station == some n && q.transmitted

section
variable {s : State} {l : LineId} {n : Nat}

theorem State.exists_of_resets (h : s.resets l n = true) :
    ∃ e, s.station n = some e ∧ e.current = l ∧ e.state ≠ .disabled := by
  unfold State.resets at h
  cases he : s.station n with
  | none => simp [he] at h
  | some e => exact ⟨e, rfl, by simpa [he] using h⟩

theorem State.resets_lt (h : s.resets l n = true) : n < 48 := by
  obtain ⟨e, he, -⟩ := State.exists_of_resets h
  exact State.station_lt he

theorem resetStation_of_stays (h : s.resets l n = false) : resetStation l s n = s := by
  unfold resetStation
  split
  · rfl
  · rename_i e he
    simp only [State.resets, he, Option.any_some, Bool.and_eq_false_iff] at h
    refine if_neg fun hc => ?_
    simp [hc.1, hc.2] at h

theorem recordsOf_filter_transmitted (p : Pool) (n : Nat) :
    (p.recordsOf n).filter (·.transmitted) = p.transmittedOf n := by
  rw [Pool.recordsOf, List.filter_filter]
  exact List.filter_congr fun q _ => Bool.and_comm ..

/-- R123: a station that RESET_LINE brings into PROBING. -/
theorem resetStation_of_resets (hd : TagsDistinct s) (h : s.resets l n = true) :
    resetStation l s n =
      probeListed (some l) n
        ((recordsDone (s.pool.transmittedOf n) .resync s).setStation n ((s.station n).map Station.lineReset)) := by
  obtain ⟨e, he, hl, hs⟩ := State.exists_of_resets h
  obtain ⟨f, hf, hr⟩ := resyncRelease_eq n hd
  have hn := State.station_lt he
  have busy : (f e).toProbing = e.toProbing := by rcases hf e with h | h <;> rw [h]; rfl
  have current : (f e).current = l := by rcases hf e with h | h <;> rw [h, ← hl]
  have released : resyncRelease n s = (recordsDone (s.pool.transmittedOf n) .resync s).setStation n (some (f e)) := by
    rw [hr, recordsOf_filter_transmitted, State.onStation_of_station (by simpa using he)]
  simp only [resetStation, he, hl, hs, ne_eq, not_false_eq_true, and_self, if_true, Option.map_some]
  rw [released, enterProbing_eq (State.station_setStation_same _ _ _ hn), State.setStation_setStation, busy, current,
    probeListed_onStation, State.onStation_of_station (State.station_setStation_same _ _ _ hn),
    State.setStation_setStation]
  rfl

end

/-! ### Completions in several batches -/

theorem recordsDone_append (rs qs : List CommandRecord) (o : CommandOutcome) (s : State) :
    recordsDone (rs ++ qs) o s = recordsDone qs o (recordsDone rs o s) := by
  induction rs generalizing s with
  | nil => rw [List.nil_append, recordsDone_nil]
  | cons r rs ih => rw [List.cons_append, recordsDone_cons, recordsDone_cons, ih]

theorem recordsDone_pool_congr {s t : State} (h : s.pool = t.pool) (rs : List CommandRecord) (o : CommandOutcome) :
    (recordsDone rs o s).pool = (recordsDone rs o t).pool := by simp only [recordsDone, h]

theorem recordsDone_queue_congr {s t : State} (h : s.queue = t.queue) (rs : List CommandRecord) (o : CommandOutcome) :
    (recordsDone rs o s).queue = (recordsDone rs o t).queue := by simp only [recordsDone, h]

theorem recordsDone_line (rs : List CommandRecord) (o : CommandOutcome) (s : State) (l : LineId) :
    (recordsDone rs o s).line l = s.line l := by cases l <;> rfl

theorem probeListed_line (o : Option LineId) (n : Nat) (s : State) (l : LineId) :
    (probeListed o n s).line l =
      { s.line l with probeList := (s.line l).probeList.filter (· != n) ++ if o = some l then [n] else [] } := by
  cases l <;> rfl

/-! ### The stations below a number -/

/-- R131: the records that the stations below k release. -/
def State.resetReleases (s : State) (l : LineId) (k : Nat) : List CommandRecord :=
  (List.range k).flatMap fun n => if s.resets l n then s.pool.transmittedOf n else []

/-- The stations below k that RESET_LINE of the line resets. -/
def State.resetsBelow (s : State) (l : LineId) (k n : Nat) : Bool := decide (n < k) && s.resets l n

/-- R131: the state u in which the stations below k have been reset. -/
structure ResetBelow (l : LineId) (k : Nat) (s u : State) : Prop where
  station : ∀ n, u.station n = if s.resetsBelow l k n then (s.station n).map Station.lineReset else s.station n
  line : ∀ m, u.line m =
    { s.line m with
      probeList := ((s.line m).probeList.filter fun n => !s.resetsBelow l k n)
        ++ if m = l then (List.range k).filter (s.resets l) else [] }
  pool : u.pool = (recordsDone (s.resetReleases l k) .resync s).pool
  queue : u.queue = (recordsDone (s.resetReleases l k) .resync s).queue

section
variable {s u : State} {l : LineId} {k : Nat}

theorem State.mem_resetReleases {q : CommandRecord} (h : q ∈ s.resetReleases l k) :
    q ∈ s.pool.records ∧ ∃ n < k, q.station = some n := by
  obtain ⟨n, hn, hq⟩ := List.mem_flatMap.1 h
  split at hq
  · obtain ⟨hq, hs⟩ := List.mem_filter.1 hq
    exact ⟨hq, n, List.mem_range.1 hn, by simpa using (Bool.and_eq_true_iff.1 hs).1⟩
  · cases hq

/-- The stations below k take none of the records of station k with them. -/
theorem ResetBelow.transmittedOf (h : ResetBelow l k s u) (hd : TagsDistinct s) :
    u.pool.transmittedOf k = s.pool.transmittedOf k := by
  simp only [Pool.transmittedOf, h.pool, recordsDone, List.filter_filter]
  refine List.filter_congr fun q hq => ?_
  cases hk : q.station == some k && q.transmitted with
  | false => rfl
  | true =>
    have fresh : q.tag ∉ (s.resetReleases l k).map (·.tag) := by
      intro hm
      obtain ⟨p, hp, ht⟩ := List.mem_map.1 hm
      obtain ⟨hp, n, hn, hs⟩ := State.mem_resetReleases hp
      obtain rfl := List.inj_on_of_nodup_map hd hp hq ht
      simp only [hs, Bool.and_eq_true, beq_iff_eq, Option.some.injEq] at hk
      omega
    simpa using fresh

theorem ResetBelow.tagsDistinct (h : ResetBelow l k s u) (hd : TagsDistinct s) : TagsDistinct u := by
  have kept : s.Sheds u := by
    unfold State.Sheds
    rw [h.pool]
    exact List.filter_sublist.map _
  exact kept.tagsDistinct hd

theorem ResetBelow.station_self (h : ResetBelow l k s u) : u.station k = s.station k := by
  simp [h.station, State.resetsBelow]

theorem ResetBelow.resets_self (h : ResetBelow l k s u) : u.resets l k = s.resets l k := by
  rw [State.resets, h.station_self]
  rfl

theorem State.resetsBelow_succ (s : State) (l : LineId) (k n : Nat) :
    s.resetsBelow l (k + 1) n = (s.resetsBelow l k n || (n == k && s.resets l k)) := by
  unfold State.resetsBelow
  by_cases h : n = k
  · subst h
    simp
  · have : n < k + 1 ↔ n < k := by omega
    simp [h, this]

theorem ResetBelow.zero (l : LineId) (s : State) : ResetBelow l 0 s s where
  station n := by simp [State.resetsBelow]
  line m := by simp [State.resetsBelow]
  pool := by simp [State.resetReleases, recordsDone_nil]
  queue := by simp [State.resetReleases, recordsDone_nil]

theorem ResetBelow.stays (h : ResetBelow l k s u) (hr : s.resets l k = false) : ResetBelow l (k + 1) s u := by
  have below : ∀ n, s.resetsBelow l (k + 1) n = s.resetsBelow l k n := by simp [State.resetsBelow_succ, hr]
  have releases : s.resetReleases l (k + 1) = s.resetReleases l k := by
    simp [State.resetReleases, List.range_succ, hr]
  exact {
    station := fun n => by rw [below, h.station]
    line := fun m => by simp only [below, h.line, List.range_succ, List.filter_append, List.filter_singleton, hr]; simp
    pool := by rw [releases, h.pool]
    queue := by rw [releases, h.queue] }

/-- R131: station k leaves its place in the probe lists and joins the tail of the line's own. -/
theorem probeList_succ (s : State) (hr : s.resets l k = true) (m : LineId) (list : List Nat) :
    ((list.filter fun n => !s.resetsBelow l k n) ++ if m = l then (List.range k).filter (s.resets l) else []).filter
        (· != k) ++ (if some l = some m then [k] else [])
      = (list.filter fun n => !s.resetsBelow l (k + 1) n)
        ++ if m = l then (List.range (k + 1)).filter (s.resets l) else [] := by
  have rest : (list.filter fun n => !s.resetsBelow l k n).filter (· != k)
      = list.filter fun n => !s.resetsBelow l (k + 1) n := by
    rw [List.filter_filter]
    refine List.filter_congr fun n _ => ?_
    rw [State.resetsBelow_succ, hr, Bool.and_true, Bool.not_or, Bool.and_comm]
    rfl
  have others : ((List.range k).filter (s.resets l)).filter (· != k) = (List.range k).filter (s.resets l) := by
    refine List.filter_eq_self.2 fun n hn => ?_
    have := List.mem_range.1 (List.mem_filter.1 hn).1
    simp only [bne_iff_ne]
    omega
  rw [List.filter_append, rest, List.append_assoc]
  by_cases hm : m = l
  · subst hm
    simp [others, List.range_succ, hr]
  · simp [hm, Ne.symm hm]

theorem ResetBelow.reset (h : ResetBelow l k s u) (hd : TagsDistinct s) (hr : s.resets l k = true) :
    ResetBelow l (k + 1) s (resetStation l u k) := by
  have releases : s.resetReleases l (k + 1) = s.resetReleases l k ++ s.pool.transmittedOf k := by
    simp [State.resetReleases, List.range_succ, hr]
  rw [resetStation_of_resets (h.tagsDistinct hd) (h.resets_self.trans hr), h.transmittedOf hd, h.station_self]
  exact {
    station := fun n => by
      rw [probeListed_station, State.resetsBelow_succ]
      by_cases hn : n = k
      · subst hn
        rw [State.station_setStation_same _ _ _ (State.resets_lt hr)]
        simp [hr]
      · rw [State.station_setStation_ne _ _ hn, recordsDone_station, h.station]
        simp [hn]
    line := fun m => by
      rw [probeListed_line, State.setStation_line, recordsDone_line, h.line, probeList_succ s hr]
    pool := by
      rw [releases, recordsDone_append, ← recordsDone_pool_congr h.pool]
      simp [probeListed]
    queue := by
      rw [releases, recordsDone_append, ← recordsDone_queue_congr h.queue]
      simp [probeListed] }

theorem resetBelow_foldl (l : LineId) (hd : TagsDistinct s) (k : Nat) :
    ResetBelow l k s ((List.range k).foldl (resetStation l) s) := by
  induction k with
  | zero => exact .zero l s
  | succ k ih =>
    rw [List.range_succ, List.foldl_append]
    cases hr : s.resets l k with
    | true => exact ih.reset hd hr
    | false =>
      have stays := ih.stays hr
      rwa [← resetStation_of_stays (ih.resets_self.trans hr)] at stays

end

end Sys2Proof.Machine
end

section
/-! PROOF. RESET_LINE as a whole (R131). -/

namespace Sys2Proof.Machine

section
variable {s : State} {l : LineId}

/-- R131, steps 1 and 2: how the line's work ends, by its mode. -/
theorem endWorkForReset_eq {ended : State}
    (h : (s.line l).mode = .active ∧ ended = scanEnded l .lineReset (cutOff l s)
      ∨ (∃ t, (s.line l).mode = .test ∧ (s.line l).test = some t ∧ ended = testEnded l t .aborted s)
      ∨ ((s.line l).mode = .off ∨ (s.line l).mode = .monitor) ∧ ended = s) : endWorkForReset l s = ended := by
  unfold endWorkForReset
  rcases h with ⟨hm, rfl⟩ | ⟨t, hm, ht, rfl⟩ | ⟨hm | hm, rfl⟩ <;> rw [hm]
  · exact endScan_eq ..
  · exact endTest_eq _ ht

theorem endTest_pool (l : LineId) (status : TestStatus) (s : State) : (endTest l status s).pool = s.pool := by
  unfold endTest
  split <;> simp [raiseLineNotice, endAssembly]

theorem State.Sheds.endWorkForReset (l : LineId) (s : State) : s.Sheds (endWorkForReset l s) := by
  unfold Machine.endWorkForReset
  split
  · exact (State.Sheds.refl s).of_pool (endTest_pool ..)
  · exact (State.Sheds.refl s).cutOff.of_pool (endScan_pool ..)
  · exact .refl s

/-- R131: everything around the lines, stations and records stays. -/
theorem resetLineNow_frame (l : LineId) (s : State) : resetLineNow l s = (resetLineNow l s).framed s :=
  resetLineNow_framed s s l

theorem resetLineNow_headTaken (l : LineId) (rest : List Request) (s : State) :
    resetLineNow l (headTaken rest s) = headTaken rest (resetLineNow l s) := by
  rw [headTaken_eq_framed, resetLineNow_framed, resetLineNow_frame l s]
  rfl

theorem LineId.other_ne (l : LineId) : l.other ≠ l := by cases l <;> decide

/-- R131, steps 3 to 5, once the work has ended. -/
theorem resetLineNow_resets (hd : TagsDistinct s) :
    ∃ v, resetLineNow l s = raiseLineNotice l .lineReset v
      ∧ ResetBelow l 48 ((endWorkForReset l s).onLine l clearLine) v :=
  ⟨_, rfl, resetBelow_foldl l (((State.Sheds.endWorkForReset l s).onLine).tagsDistinct hd) 48⟩

theorem State.resetsBelow_all (s : State) (l : LineId) (n : Nat) : s.resetsBelow l 48 n = s.resets l n := by
  unfold State.resetsBelow
  cases hr : s.resets l n with
  | false => simp
  | true => simp [State.resets_lt hr]

end

/-- Settles O27; the stations by induction on their number, `resetBelow_foldl`. -/
theorem resetLineProbesItsStations : Obligations.ResetLineProbesItsStations := by
  intro s r rest line h hd hb
  have hc : requestCode r.body = some 0x42 := by rw [hb]; rfl
  have hl : lengthFits r.body = true := by rw [hb]; rfl
  have hline : u8At r.body 1 = line.toNat := by rw [hb]; rfl
  refine ⟨fun high => ?_, fun l hlb => ?_⟩
  · have refused : applyResetLine r.body (headTaken rest s) = ⟨headTaken rest s, some ⟨.badParameter, []⟩⟩ := by
      rw [applyResetLine, withLine, hline, lineOf_of_lt high]
      rfl
    exact congrArg _ (takeRequest_of_apply h hc hl (by decide) refused)
  have named : applyResetLine r.body (headTaken rest s)
      = afterShift l .lineReset (resetLineNow l) (headTaken rest s) := by
    rw [applyResetLine, withLine, hline]
    rcases hlb with ⟨rfl, rfl⟩ | ⟨rfl, rfl⟩ <;> rfl
  refine ⟨fun shifting => ?_, fun ended idle work => ?_⟩
  · show Host.Outcome.next (takeRequest 0x42 false applyResetLine s) = _
    rw [takeRequest_eq h.1 hc hl (.inl h.2) (by decide), named, afterShift, headTaken_line, if_pos shifting]
    cases l <;> rfl
  · intro resets released
    obtain ⟨v, hv, done⟩ := resetLineNow_resets (l := l) hd
    rw [endWorkForReset_eq work] at done
    have resetsEq : (ended.onLine l clearLine).resets l = resets :=
      funext fun n => by simp only [State.resets, State.onLine_station]; rfl
    have releasedEq : (ended.onLine l clearLine).resetReleases l 48 = released := by
      unfold State.resetReleases
      rw [resetsEq]
      simp [released, Pool.transmittedOf]
    have frame := resetLineNow_frame l s
    refine ⟨resetLineNow l s, ?_, fun n => ?_, ?_, ?_, ?_, ?_,
      by rw [frame]; rfl, by rw [frame]; rfl, by rw [frame]; rfl, by rw [frame]; rfl, by rw [frame]; rfl⟩
    · have answers : applyResetLine r.body (headTaken rest s)
          = ⟨headTaken rest (resetLineNow l s), some ⟨.ok, []⟩⟩ := by
        rw [named, afterShift, headTaken_line, idle, resetLineNow_headTaken]
        rfl
      exact congrArg _ (takeRequest_of_apply h hc hl (by decide) answers)
    · rw [hv, raiseLineNotice_eq, State.onLine_station, done.station, State.resetsBelow_all, resetsEq,
        State.onLine_station]
      rfl
    · rw [hv, raiseLineNotice_eq, State.line_onLine_same, done.line]
      simp only [State.resetsBelow_all, resetsEq, State.line_onLine_same]
      rfl
    · rw [hv, raiseLineNotice_eq, State.line_onLine_other, done.line]
      simp [State.resetsBelow_all, resetsEq, LineId.other_ne]
    · rw [hv, raiseLineNotice_eq, State.onLine_pool, done.pool, releasedEq]
      exact recordsDone_pool_congr (State.onLine_pool ..) ..
    · rw [hv, raiseLineNotice_eq, State.onLine_queue, done.queue, releasedEq]
      exact recordsDone_queue_congr (State.onLine_queue ..) ..

end Sys2Proof.Machine
end

end


/- These declarations too are elaborated one after another. -/
section
set_option Elab.async false

section
/-! SUPPORT. The judgement of a line test's frame (R140). -/

namespace Sys2Proof.Machine

/-- R140: the line test with the frame in progress judged: a match is counted, and the first mismatch kept. -/
def LineTest.judged (t : LineTest) (matched : Bool) : LineTest :=
  { t with
    framesMatched := if matched then t.framesMatched + 1 else t.framesMatched
    firstMismatch := if matched ∨ t.firstMismatch.isSome then t.firstMismatch else some t.index }

/-- R140, R141: after a judgement comes the gap, or, at the last frame, the end of the test. -/
theorem judgeTest_eq {s : State} {l : LineId} {t : LineTest} (matched : Bool) (ht : (s.line l).test = some t) :
    judgeTest l matched s =
      if t.index + 1 < t.count then
        s.onLine l fun ln =>
          { ln with
            test := some { t.judged matched with phase := .gap, handed := none, timer := some ln.config.lineGap } }
      else testEnded l (t.judged matched) .complete s := by
  have told : (if matched then { t with framesMatched := t.framesMatched + 1 }
      else { t with firstMismatch := t.firstMismatch.or (some t.index) }) = t.judged matched := by
    cases matched <;> cases hf : t.firstMismatch <;> simp [LineTest.judged, hf]
  have ends : testEnded l (t.judged matched) .complete (s.onLine l fun ln => { ln with test := some (t.judged matched) })
      = testEnded l (t.judged matched) .complete s := by cases l <;> rfl
  unfold judgeTest
  rw [ht]
  dsimp only
  rw [told, ← ends, ← endTest_eq .complete (by simp)]
  by_cases h : t.index + 1 < t.count
  · rw [if_pos h]
    exact if_neg (Nat.not_le.2 h)
  · rw [if_neg h]
    exact if_pos (Nat.not_lt.1 h)

end Sys2Proof.Machine
end


section
/-! SUPPORT. What a step can do to the soundness of the line columns (R24, R25, R30, R34, R41, R125, R126, R133, R139).
Most operations are calm: of a line they change nothing that its soundness rests on, but that a scan or a frame of an
assembler may go, and that a frame may be begun outside OFF. -/

namespace Sys2Proof.Machine

/-! ### Soundness, clause by clause -/

/-- R41: whether the exchange in flight, if there is one, is in a phase that drives the line. -/
def Line.sending (ln : Line) : Option Bool := ln.exchange.map (·.phase.drives)

/-- The clauses of a sound line, but for the one that a driving phase has the driver asserted: what is left of them while
a driver is released before its exchange is cut off (R25). -/
structure Line.Workable (ln : Line) : Prop where
  exchange : ln.sending.isSome → ln.mode = .active ∧ ln.stuck = false
  scan : ln.scan.isSome → ln.mode = .active ∧ ln.stuck = false
  test : ln.test.isSome ↔ ln.mode = .test
  stuck : ln.stuck = true → (ln.mode = .active ∨ ln.mode = .monitor) ∧ ln.driver = false
  assembler : ln.assembler.isSome → ln.mode ≠ .off
  driver : ln.driver = true → ln.ending.isSome ∨ ln.sending = some true
  restart : ln.afterRestart.isSome → ln.sending = none
  looped : ∀ c, ln.ending = some (.restart c true) → ln.driver = false
  ending : ln.ending ≠ some (.modeChange .test)

theorem Line.sending_eq_none {ln : Line} : ln.sending = none ↔ ln.exchange = none := Option.map_eq_none_iff

theorem Line.sending_isSome {ln : Line} : ln.sending.isSome ↔ ln.exchange.isSome := by simp [Line.sending]

theorem Line.sending_of_exchange {ln : Line} {x : Exchange} (h : ln.exchange = some x) :
    ln.sending = some x.phase.drives := by simp [Line.sending, h]

theorem Line.sending_eq_true {ln : Line} : ln.sending = some true ↔ ∃ x, ln.exchange = some x ∧ x.phase.drives := by
  simp [Line.sending]

theorem Line.sound_iff {ln : Line} : ln.Sound ↔ ln.Workable ∧ (ln.sending = some true → ln.driver = true) := by
  constructor
  · rintro ⟨hx, hsc, ht, hst, ha, hd, hp, hr, hl, he⟩
    refine ⟨⟨fun h => hx (Line.sending_isSome.1 h), hsc, ht, hst, ha, ?_, ?_, ?_, he⟩, fun h => ?_⟩
    · rwa [Line.sending_eq_true]
    · rwa [Line.sending_eq_none]
    · exact fun c hc => hl c (Line.afterRestart_eq_some.2 hc)
    · obtain ⟨x, hx, hd⟩ := Line.sending_eq_true.1 h
      exact hp x hx hd
  · rintro ⟨⟨hx, hsc, ht, hst, ha, hd, hr, hl, he⟩, hp⟩
    rw [Line.sending_eq_true] at hd
    rw [Line.sending_eq_none] at hr
    exact ⟨fun h => hx (Line.sending_isSome.2 h), hsc, ht, hst, ha, hd,
      fun x hx hd => hp (Line.sending_eq_true.2 ⟨x, hx, hd⟩), hr, fun c hc => hl c (Line.afterRestart_eq_some.1 hc), he⟩

theorem Line.Sound.workable {ln : Line} (h : ln.Sound) : ln.Workable := (Line.sound_iff.1 h).1

/-- R24: a sound line that sends nothing is one that is workable. -/
theorem Line.Workable.sound {ln : Line} (h : ln.Workable) (hs : ln.sending ≠ some true) : ln.Sound :=
  Line.sound_iff.2 ⟨h, fun k => absurd k hs⟩

/-- Both lines are sound. -/
def State.LinesSound (s : State) : Prop := ∀ l, (s.line l).Sound

/-- The lines are sound, but that line l is only workable. -/
def State.LinesWorkable (l : LineId) (s : State) : Prop := (s.line l).Workable ∧ ∀ m ≠ l, (s.line m).Sound

theorem State.LinesSound.workable {s : State} (h : s.LinesSound) (l : LineId) : s.LinesWorkable l :=
  ⟨(h l).workable, fun m _ => h m⟩

/-- A change of one line, which leaves it sound. -/
theorem State.LinesWorkable.onLine {s : State} {l : LineId} (h : s.LinesWorkable l) {f : Line → Line}
    (hf : (f (s.line l)).Sound) : (s.onLine l f).LinesSound := by
  intro m
  rw [State.line_onLine]
  split
  next hm => rwa [hm]
  next hm => exact h.2 m hm

theorem State.LinesSound.onLine {s : State} {l : LineId} (h : s.LinesSound) {f : Line → Line}
    (hf : (f (s.line l)).Sound) : (s.onLine l f).LinesSound := (h.workable l).onLine hf

/-! ### Calm changes -/

/-- A change of a line that its soundness does not mind. -/
structure Line.Calm (a b : Line) : Prop where
  mode : b.mode = a.mode := by rfl
  stuck : b.stuck = a.stuck := by rfl
  driver : b.driver = a.driver := by rfl
  ending : b.ending = a.ending := by rfl
  sending : b.sending = a.sending := by rfl
  test : b.test.isSome = a.test.isSome := by rfl
  scan : b.scan.isSome → a.scan.isSome := by exact id
  assembler : b.assembler.isSome → a.assembler.isSome ∨ a.mode ≠ .off := by exact .inl

theorem Line.Calm.refl (a : Line) : a.Calm a := {}

theorem Line.Calm.trans {a b c : Line} (h : a.Calm b) (k : b.Calm c) : a.Calm c where
  mode := k.mode.trans h.mode
  stuck := k.stuck.trans h.stuck
  driver := k.driver.trans h.driver
  ending := k.ending.trans h.ending
  sending := k.sending.trans h.sending
  test := k.test.trans h.test
  scan := h.scan ∘ k.scan
  assembler := fun hc => (k.assembler hc).elim h.assembler fun hm => .inr (h.mode ▸ hm)

theorem Line.Calm.afterRestart {a b : Line} (h : a.Calm b) : b.afterRestart = a.afterRestart := by
  simp only [Line.afterRestart, h.ending]

theorem Line.Calm.workable {a b : Line} (h : a.Calm b) (ha : a.Workable) : b.Workable where
  exchange := by rw [h.sending, h.mode, h.stuck]; exact ha.exchange
  scan := by rw [h.mode, h.stuck]; exact ha.scan ∘ h.scan
  test := by rw [h.test, h.mode]; exact ha.test
  stuck := by rw [h.stuck, h.mode, h.driver]; exact ha.stuck
  assembler := fun hb => by rw [h.mode]; exact (h.assembler hb).elim ha.assembler id
  driver := by rw [h.driver, h.ending, h.sending]; exact ha.driver
  restart := by rw [h.afterRestart, h.sending]; exact ha.restart
  looped := by rw [h.ending, h.driver]; exact ha.looped
  ending := by rw [h.ending]; exact ha.ending

theorem Line.Calm.sound {a b : Line} (h : a.Calm b) (ha : a.Sound) : b.Sound := by
  rw [Line.sound_iff] at ha ⊢
  rw [h.sending, h.driver]
  exact ⟨h.workable ha.1, ha.2⟩

/-- Both lines have changed calmly. -/
def State.Calm (s t : State) : Prop := ∀ l, (s.line l).Calm (t.line l)

theorem State.Calm.refl (s : State) : s.Calm s := fun _ => .refl _

theorem State.Calm.trans {s t u : State} (h : s.Calm t) (k : t.Calm u) : s.Calm u := fun l => (h l).trans (k l)

theorem State.Calm.sound {s t : State} (h : s.Calm t) (hs : s.LinesSound) : t.LinesSound := fun l => (h l).sound (hs l)

theorem State.Calm.workable {s t : State} {l : LineId} (h : s.Calm t) (hs : s.LinesWorkable l) : t.LinesWorkable l :=
  ⟨(h l).workable hs.1, fun m hm => (h m).sound (hs.2 m hm)⟩

section
variable {s t : State}

theorem State.Calm.onLine (h : s.Calm t) {l : LineId} {f : Line → Line}
    (hf : (t.line l).Calm (f (t.line l)) := by exact {}) : s.Calm (t.onLine l f) := by
  refine h.trans fun m => ?_
  rw [State.line_onLine]
  split
  next hm => rwa [hm]
  next => exact .refl _

/-- The same change of a line, before and after what is calm. -/
theorem State.Calm.onLine_both (h : s.Calm t) {l : LineId} {f : Line → Line}
    (hf : ∀ a b : Line, a.Calm b → (f a).Calm (f b)) : (s.onLine l f).Calm (t.onLine l f) := by
  intro m
  rw [State.line_onLine, State.line_onLine]
  split
  · exact hf _ _ (h m)
  · exact h m

/-- A change of none of the line columns. -/
theorem State.Calm.of_line (h : s.Calm t) {u : State} (hl : ∀ l, u.line l = t.line l := by intro _; simp) : s.Calm u :=
  h.trans fun l => by rw [hl]; exact .refl _

theorem State.Calm.ite {p : Prop} [Decidable p] {u v : State} (hu : p → s.Calm u) (hv : ¬p → s.Calm v) :
    s.Calm (if p then u else v) := by
  split
  next hp => exact hu hp
  next hp => exact hv hp

/-! ### Stations and records -/

theorem State.Calm.leaveProbeLists (h : s.Calm t) {n : Nat} : s.Calm (leaveProbeLists n t) :=
  h.trans fun l => by cases l <;> exact {}

theorem State.Calm.joinProbeList (h : s.Calm t) {l : LineId} {n : Nat} : s.Calm (joinProbeList l n t) := h.onLine

theorem State.Calm.onStation (h : s.Calm t) {n : Nat} {f : Station → Station} : s.Calm (t.onStation n f) := h.of_line

theorem State.Calm.setStation (h : s.Calm t) {n : Nat} {e : Option Station} : s.Calm (t.setStation n e) := h.of_line

theorem State.Calm.completeAllOf (h : s.Calm t) {n : Nat} {o : CommandOutcome} : s.Calm (completeAllOf n o t) :=
  h.of_line fun _ => completeRecords_line ..

theorem State.Calm.resyncRelease (h : s.Calm t) {n : Nat} : s.Calm (resyncRelease n t) :=
  h.of_line fun _ => completeRecords_line ..

theorem State.Calm.enterProbing (h : s.Calm t) {n : Nat} : s.Calm (enterProbing n t) := by
  unfold Machine.enterProbing
  split
  · exact h
  · exact h.setStation.leaveProbeLists.joinProbeList

theorem State.Calm.disableTakesEffect (h : s.Calm t) {n : Nat} : s.Calm (disableTakesEffect n t) :=
  h.onStation.leaveProbeLists.completeAllOf.onStation

theorem State.Calm.resolveDisable (h : s.Calm t) {n : Nat} : s.Calm (resolveDisable n t) := by
  unfold Machine.resolveDisable
  split
  · exact h
  · exact .ite (fun _ => h.disableTakesEffect) fun _ => h

theorem State.Calm.stationAnswered (h : s.Calm t) {n : Nat} : s.Calm (stationAnswered n t) := by
  unfold Machine.stationAnswered
  split
  · exact h
  · split
    · exact h
    · exact h
    · exact h.setStation
    · exact h.leaveProbeLists.onStation
    · exact h.leaveProbeLists.onStation

theorem State.Calm.loseStation (h : s.Calm t) {n : Nat} : s.Calm (loseStation n t) := by
  refine State.Calm.onStation (State.Calm.completeAllOf ?_)
  unfold enterOffline
  split
  · exact h
  · exact .ite (fun _ => h.setStation) fun _ => h.setStation.leaveProbeLists.joinProbeList

theorem State.Calm.moveRecords (h : s.Calm t) {n : Nat} {l : LineId} : s.Calm (moveRecords n l t) :=
  h.of_line fun _ => rfl

theorem State.Calm.failOver (h : s.Calm t) {n : Nat} : s.Calm (failOver n t) := by
  unfold Machine.failOver
  split
  · exact h
  · exact h.leaveProbeLists.onStation.resyncRelease.moveRecords.enterProbing.onStation

theorem State.Calm.compareThreshold (h : s.Calm t) {n : Nat} : s.Calm (compareThreshold n t) := by
  unfold Machine.compareThreshold
  split
  · exact h
  · exact .ite (fun _ => .ite (fun _ => h.failOver) fun _ => h.loseStation) fun _ => h

theorem State.Calm.stationFailed (h : s.Calm t) {n : Nat} : s.Calm (stationFailed n t) := by
  unfold Machine.stationFailed
  split
  · exact h
  · dsimp only
    split
    · exact h
    · exact h.setStation.compareThreshold
    · exact h.setStation.compareThreshold
    · exact h.setStation.compareThreshold
    · exact h.setStation

theorem State.Calm.resetStation (h : s.Calm t) {l : LineId} {n : Nat} : s.Calm (resetStation l t n) := by
  unfold Machine.resetStation
  split
  · exact h
  · exact .ite (fun _ => h.resyncRelease.enterProbing.onStation) fun _ => h

theorem State.Calm.foldl_resetStation (h : s.Calm t) {l : LineId} (ns : List Nat) :
    s.Calm (ns.foldl (Machine.resetStation l) t) := by
  induction ns generalizing t with
  | nil => exact h
  | cons n ns ih => exact ih h.resetStation

/-! ### The work of a line -/

theorem State.Calm.countLine (h : s.Calm t) {l : LineId} {f : LineCounters → LineCounters} :
    s.Calm (countLine l f t) := h.onLine

theorem State.Calm.raiseLineNotice (h : s.Calm t) {l : LineId} {c : LineCause} : s.Calm (raiseLineNotice l c t) :=
  h.onLine

theorem State.Calm.endAssembly (h : s.Calm t) {l : LineId} : s.Calm (endAssembly l t) := by
  rw [endAssembly_eq]
  exact h.onLine { assembler := by simp }

theorem State.Calm.endScan (h : s.Calm t) {l : LineId} {status : ScanStatus} : s.Calm (endScan l status t) := by
  unfold Machine.endScan
  split
  · exact h
  · exact State.Calm.onLine h.of_line { scan := by simp }

theorem State.Calm.rollCallResult (h : s.Calm t) {l : LineId} {present : Bool} :
    s.Calm (rollCallResult l present t) := by
  unfold Machine.rollCallResult
  split
  · exact h
  next sc hsc =>
    refine .ite (fun _ => h) fun _ => ?_
    have told (responders : List Nat) : s.Calm (t.onLine l fun ln =>
        { ln with scan := some { sc with rollCall := false, responders } }) :=
      h.onLine { scan := by simp [hsc] }
    exact .ite (fun _ => (told _).endScan) fun _ => told _

/-- Of an exchange changed, only whether its phase drives the line matters. -/
theorem State.Calm.onExchange (h : s.Calm t) {l : LineId} {f : Exchange → Exchange}
    (hf : ∀ x, (t.line l).exchange = some x → (f x).phase.drives = x.phase.drives := by exact fun _ _ => rfl) :
    s.Calm (onExchange l f t) := by
  refine h.onLine { sending := ?_ }
  unfold Line.sending
  cases hx : (t.line l).exchange with
  | none => rfl
  | some x => simp [hf x hx]

theorem State.Calm.decideOutcome (h : s.Calm t) {l : LineId} {o : ExchangeOutcome} : s.Calm (decideOutcome l o t) :=
  h.onExchange

theorem State.Calm.onCarried (h : s.Calm t) {x : Exchange} {f : CommandRecord → CommandRecord} :
    s.Calm (onCarried x f t) := by
  unfold Machine.onCarried
  split
  · exact h
  · exact h.of_line

theorem State.Calm.onNamed (h : s.Calm t) {x : Exchange} {f : Station → Station} : s.Calm (onNamed x f t) := by
  unfold Machine.onNamed
  split
  · exact h
  · exact h.onStation

theorem State.Calm.completeCarried (h : s.Calm t) {x : Exchange} {o : CommandOutcome} {d : List Byte} :
    s.Calm (completeCarried x o d t) := by
  unfold Machine.completeCarried
  split
  · exact h
  · split
    · exact h
    · exact h.of_line

theorem State.Calm.releaseHeld (h : s.Calm t) {x : Exchange} : s.Calm (releaseHeld x t) :=
  .ite (fun _ => h.of_line) fun _ => h

theorem State.Calm.giveBack (h : s.Calm t) {x : Exchange} : s.Calm (giveBack x t) := by
  unfold Machine.giveBack
  split
  · exact h
  · split
    · exact h
    · exact .ite (fun _ => h.of_line) fun _ => h.of_line

theorem State.Calm.disposeWork (h : s.Calm t) {l : LineId} {x : Exchange} : s.Calm (disposeWork l x t) := by
  cases hk : x.kind with
  | poll =>
    rw [disposeWork_of_poll hk]
    exact h.releaseHeld.onNamed
  | probe =>
    rw [disposeWork_of_probe hk]
    exact h.releaseHeld.onNamed
  | rollCall =>
    rw [disposeWork_of_rollCall hk]
    exact h.rollCallResult
  | command =>
    rw [disposeWork_of_record (.inl hk)]
    exact h.giveBack
  | broadcast =>
    rw [disposeWork_of_record (.inr hk)]
    exact h.giveBack

theorem State.Calm.exchangeFailed (h : s.Calm t) {l : LineId} {x : Exchange} : s.Calm (exchangeFailed l x t) := by
  refine State.Calm.decideOutcome ?_
  split
  · exact h.releaseHeld.onNamed
  · exact h.releaseHeld
  · exact h.completeCarried
  · exact h
  · exact h

/-- R48: the engine enters GAP from a phase that does not drive the line. -/
theorem State.Calm.enterGap (h : s.Calm t) {l : LineId} (hs : (t.line l).sending ≠ some true) :
    s.Calm (enterGap l t) := by
  refine h.onLine { sending := ?_, assembler := by simp }
  unfold Line.sending at hs ⊢
  cases hx : (t.line l).exchange with
  | none => rfl
  | some x =>
    rw [hx] at hs
    simpa [Phase.drives] using hs

theorem State.Calm.failAttempt (h : s.Calm t) {l : LineId} {k : FailureKind} (hs : (t.line l).sending ≠ some true) :
    s.Calm (failAttempt l k t) := by
  unfold Machine.failAttempt
  split
  · exact h
  next x _ =>
    have recorded : t.Calm (recordFailedAttempt l x k t) :=
      (State.Calm.onExchange (.refl t)).onCarried.onNamed.countLine
    have decided : t.Calm (if x.attempt ≤ retryLimitOf x (recordFailedAttempt l x k t) then
        recordFailedAttempt l x k t else Machine.exchangeFailed l x (recordFailedAttempt l x k t)) :=
      .ite (fun _ => recorded) fun _ => recorded.exchangeFailed
    exact (h.trans decided).enterGap ((decided l).sending ▸ hs)

theorem State.Calm.endRollCall (h : s.Calm t) {l : LineId} {present : Bool} (hs : (t.line l).sending ≠ some true) :
    s.Calm (endRollCall l present t) := by
  have decided : t.Calm (Machine.decideOutcome l (if present then .present else .absent)
      (Machine.rollCallResult l present t)) := (State.Calm.refl t).rollCallResult.decideOutcome
  exact (h.trans decided).enterGap ((decided l).sending ▸ hs)

theorem State.Calm.acceptData (h : s.Calm t) {x : Exchange} {d : List Byte} : s.Calm (acceptData x d t) := by
  unfold Machine.acceptData
  split
  · exact h
  · exact State.Calm.onStation h.of_line

theorem State.Calm.acceptProbe (h : s.Calm t) {l : LineId} {x : Exchange} {k : ReplyKind} {d : List Byte} :
    s.Calm (acceptProbe l x k d t) := by
  unfold Machine.acceptProbe
  split
  · exact h.acceptData
  · exact h.releaseHeld.onNamed
  · exact h.releaseHeld.onNamed

theorem State.Calm.acceptPoll (h : s.Calm t) {l : LineId} {x : Exchange} {k : ReplyKind} {d : List Byte} :
    s.Calm (acceptPoll l x k d t) := by
  refine State.Calm.onNamed ?_
  split
  · exact h.acceptData
  · exact h.releaseHeld.onNamed
  · exact h.releaseHeld.onNamed

theorem State.Calm.acceptCommandBusy (h : s.Calm t) {l : LineId} {x : Exchange} : s.Calm (acceptCommandBusy l x t) := by
  unfold Machine.acceptCommandBusy
  split
  · exact h
  · split
    · exact h
    · dsimp only
      unfold busyDisposition
      exact .ite (fun _ => h.setStation.completeCarried.onNamed) fun _ => h.setStation.giveBack

theorem State.Calm.acceptReply (h : s.Calm t) {l : LineId} {x : Exchange} {k : ReplyKind} {d : List Byte} :
    s.Calm (acceptReply l x k d t) := by
  refine State.Calm.decideOutcome ?_
  split
  · exact h.acceptPoll
  · exact h.acceptProbe
  · exact h.acceptCommandBusy
  · exact h.completeCarried.onNamed
  · exact h.completeCarried.onNamed
  · exact h
  · exact h

theorem State.Calm.judgeReply (h : s.Calm t) {l : LineId} {u : HandedUp} : s.Calm (judgeReply l u t) := by
  unfold Machine.judgeReply
  split
  · exact h
  next x hx =>
    refine .ite (fun _ => h) fun hp => ?_
    have quiet : (t.line l).sending ≠ some true := by
      rw [Line.sending_of_exchange hx, Decidable.not_not.1 hp]
      decide
    split
    · exact h.endRollCall quiet
    · exact h.failAttempt quiet
    · exact h.failAttempt quiet
    next k _ _ _ =>
      have accepted : t.Calm (Machine.acceptReply l x k u.payload t) := (State.Calm.refl t).acceptReply
      exact (h.trans accepted).enterGap ((accepted l).sending ▸ quiet)

theorem State.Calm.captureFrame (h : s.Calm t) {l : LineId} {u : HandedUp} : s.Calm (captureFrame l u t) :=
  .ite (fun _ => h.of_line) fun _ => h.countLine

/-! ### The receiver -/

theorem Line.testHeard_isSome (ln : Line) : ln.testHeard.isSome = ln.test.isSome := by
  unfold Line.testHeard
  split <;> simp

theorem State.Calm.receiveCharacter (h : s.Calm t) {l : LineId} {fe : Bool} : s.Calm (receiveCharacter l fe t) :=
  h.onLine { test := Line.testHeard_isSome _ }

theorem State.Calm.receiveStray (h : s.Calm t) {l : LineId} {fe : Bool} : s.Calm (receiveStray l fe t) :=
  h.onLine { test := Line.testHeard_isSome _ }

/-- R34: a frame begins or goes on outside OFF. -/
theorem State.Calm.holdPartial (h : s.Calm t) {l : LineId} {cs : List Byte} {fe : Bool} (hm : (t.line l).mode ≠ .off) :
    s.Calm (holdPartial l cs fe t) := h.onLine { assembler := fun _ => .inr hm }

theorem State.Calm.beginReply (h : s.Calm t) {l : LineId} : s.Calm (beginReply l t) :=
  h.onExchange fun x _ => by
    split
    next hp => rw [hp]; rfl
    next => rfl

/-! ### The host link -/

theorem State.Calm.queueIfRoom (h : s.Calm t) {r : Response} : s.Calm (queueIfRoom r t) :=
  .ite (fun _ => h.of_line) fun _ => h.of_line fun _ => rfl

theorem State.Calm.answerHeld (h : s.Calm t) : s.Calm (answerHeld t) := by
  unfold Machine.answerHeld
  split
  · exact h
  · exact h.of_line fun _ => rfl

theorem State.Calm.returnFromStall (h : s.Calm t) : s.Calm (returnFromStall t) :=
  .ite (fun _ => h.of_line fun _ => rfl) fun _ => h

theorem State.Calm.takeAck (h : s.Calm t) {n : Half} : s.Calm (takeAck n t) := by
  refine .ite (fun _ => ?_) fun _ => h.of_line fun _ => rfl
  unfold acknowledge
  exact .ite (fun _ => h.of_line fun _ => rfl) fun _ => h.of_line fun _ => rfl

theorem State.Calm.startHostFrame (h : s.Calm t) : s.Calm (startHostFrame t) := by
  refine .ite (fun _ => ?_) fun _ => h
  split
  · exact h.of_line
  · split
    · exact h.of_line fun _ => rfl
    · exact .ite (fun _ => h.of_line) fun _ => h

theorem State.Calm.restartAckTimer (h : s.Calm t) : s.Calm (restartAckTimer t) :=
  .ite (fun _ => h.of_line) fun _ => h

theorem State.Calm.arrive (h : s.Calm t) {r : Request} : s.Calm (arrive r t) := by
  unfold Machine.arrive
  split
  · exact h.queueIfRoom.of_line fun _ => rfl
  · refine .ite (fun _ => h.of_line fun _ => rfl) fun _ => .ite (fun _ => ?_) fun _ => h.of_line
    exact .ite (fun _ => h.queueIfRoom.of_line fun _ => rfl) fun _ => h.queueIfRoom

end

end Sys2Proof.Machine
end

section
/-! SUPPORT. The operations that do change what a line's soundness rests on: the start and the end of its work, its modes
and its driver. Each leaves the lines sound. -/

namespace Sys2Proof.Machine

section
variable {s t : State} {l : LineId}

/-! ### Exchanges that begin and end -/

/-- R24, R71: an attempt begins on a line in ACTIVE without STUCK whose shift path RESTART has left empty. -/
theorem State.LinesSound.beginAttempt (h : s.LinesSound) {x : Exchange} (hm : (s.line l).mode = .active)
    (hst : (s.line l).stuck = false) (hr : (s.line l).afterRestart = none) : (beginAttempt l x s).LinesSound := by
  have hc : s.Calm (onCarried x (fun r => { r with attempts := bump255 r.attempts }) s) := (State.Calm.refl s).onCarried
  refine (hc.sound h).onLine ?_
  generalize onCarried x _ s = u at hc
  have calm := hc l
  have w := (calm.sound (h l)).workable
  refine Line.sound_iff.2 ⟨{ w with
    exchange := fun _ => ⟨calm.mode.trans hm, calm.stuck.trans hst⟩
    stuck := fun k => ?_
    driver := fun _ => .inr rfl
    restart := fun k => ?_
    looped := fun c k => ?_ }, fun _ => rfl⟩
  · exact absurd (calm.stuck.symm.trans k) (by simp [hst])
  · have k : (u.line l).afterRestart.isSome := k
    rw [calm.afterRestart, hr] at k
    cases k
  · have k := Line.afterRestart_eq_some.2 (show (u.line l).ending = _ from k)
    rw [calm.afterRestart, hr] at k
    cases k

theorem State.LinesSound.startExchange (h : s.LinesSound) {kind : ExchangeKind} {station : Option Nat} {target : Nat}
    {record : Option Half} {holds toggle : Bool} {payload : List Byte} (hm : (s.line l).mode = .active)
    (hst : (s.line l).stuck = false) (hr : (s.line l).afterRestart = none) :
    (startExchange l kind station target record holds toggle payload s).LinesSound := by
  have calm (x : Exchange) : s.Calm (onCarried x (fun r => { r with state := .inFlight, lastFailure := none }) s) :=
    (State.Calm.refl s).onCarried
  exact ((calm _).sound h).beginAttempt ((calm _ l).mode.trans hm) ((calm _ l).stuck.trans hst)
    ((calm _ l).afterRestart.trans hr)

/-- The line with its exchange record emptied. -/
def Line.emptied (ln : Line) : Line := { ln with exchange := none }

theorem State.onLine_emptied (h : (s.line l).exchange = none) : s.onLine l Line.emptied = s := by
  have : s.onLine l Line.emptied = s.onLine l fun ln => ln := State.onLine_congr (by simp [Line.emptied, ← h])
  rw [this, State.onLine_id]

/-- R64: of the lines, the end of an exchange empties its record and changes the rest calmly. -/
theorem endExchange_calm (l : LineId) (s : State) : (s.onLine l Line.emptied).Calm (endExchange l s) := by
  unfold endExchange
  split
  next hx =>
    rw [State.onLine_emptied hx]
    exact .refl s
  next x hx =>
    dsimp only
    have empty : (s.onLine l Line.emptied).Calm (s.onLine l fun ln => { ln with exchange := none }) := .refl _
    split
    · exact empty
    · refine State.Calm.resolveDisable ?_
      cases x.result with
      | answered => exact empty.stationAnswered
      | failed => exact empty.stationFailed
      | nothing => exact empty

/-- R24: an exchange in a phase that does not drive the line ends. -/
theorem State.LinesSound.endExchange (h : s.LinesSound) (hs : (s.line l).sending ≠ some true) :
    (endExchange l s).LinesSound := by
  refine (endExchange_calm l s).sound (h.onLine ?_)
  have w := (h l).workable
  exact Line.Workable.sound { w with
    exchange := nofun
    driver := fun k => (w.driver k).imp_right fun k => absurd k hs
    restart := fun _ => rfl } nofun

/-- R65, R66: what cutting its exchange off leaves of a line. -/
def Line.cutShort (ln : Line) : Line := { ln with driver := ln.driverOff, assembler := none, exchange := none }

theorem Line.Calm.emptied {a b : Line} (h : a.Calm b) : a.emptied.Calm b.emptied := { h with sending := rfl }

/-- R65, R66: of the lines, the cutting off of an exchange does that and changes the rest calmly. -/
theorem cutOff_calm (l : LineId) (s : State) : (s.onLine l Line.cutShort).Calm (cutOff l s) := by
  have cut : (s.onLine l Line.cutShort).Calm ((s.onLine l Line.released).onLine l Line.emptied) := by
    rw [State.onLine_onLine]
    intro m
    rw [State.line_onLine, State.line_onLine]
    split
    · exact {}
    · exact .refl _
  cases hx : (s.line l).exchange with
  | none =>
    have seeks : ((s.onLine l Line.released).line l).exchange = none := by simpa [Line.released] using hx
    rw [cutOff_of_none hx]
    rwa [State.onLine_emptied seeks] at cut
  | some x =>
    cases ho : x.outcome with
    | some o =>
      rw [cutOff_of_decided hx (by simp [ho])]
      exact cut.trans (endExchange_calm l _)
    | none =>
      rw [cutOff_of_undecided hx ho]
      refine (cut.trans ?_).trans (endExchange_calm l _)
      exact (State.Calm.refl _).disposeWork.onLine_both fun _ _ h => h.emptied

/-- R25, R69: the driver is released but for a character left by RESTART. -/
theorem Line.driverOff_eq_true {ln : Line} : ln.driverOff = true ↔ ln.driver = true ∧ ln.afterRestart.isSome := by
  simp [Line.driverOff]

theorem Line.ending_of_afterRestart {ln : Line} (h : ln.afterRestart.isSome) : ln.ending.isSome := by
  obtain ⟨⟨c, looped⟩, hc⟩ := Option.isSome_iff_exists.1 h
  rw [Line.afterRestart_eq_some] at hc
  simp [hc]

theorem Line.driverOff_of_false {ln : Line} (h : ln.driver = false) : ln.driverOff = false := by simp [Line.driverOff, h]

/-- R65: cutting off leaves a workable line sound. -/
theorem Line.Workable.cutShort {ln : Line} (w : ln.Workable) : ln.cutShort.Sound :=
  Line.Workable.sound { w with
    exchange := nofun
    stuck := fun k => ⟨(w.stuck k).1, Line.driverOff_of_false (w.stuck k).2⟩
    assembler := nofun
    driver := fun k => .inl (Line.ending_of_afterRestart (Line.driverOff_eq_true.1 k).2)
    restart := fun _ => rfl
    looped := fun c k => Line.driverOff_of_false (w.looped c k) } nofun

theorem State.LinesWorkable.cutOff (h : s.LinesWorkable l) : (cutOff l s).LinesSound :=
  (cutOff_calm l s).sound (h.onLine h.1.cutShort)

theorem cutOff_exchange (l : LineId) (s : State) : ((cutOff l s).line l).exchange = none := by
  rw [← Line.sending_eq_none, (cutOff_calm l s l).sending, State.line_onLine_same]
  rfl

theorem cutOff_mode (l : LineId) (s : State) : ((cutOff l s).line l).mode = (s.line l).mode := by
  rw [(cutOff_calm l s l).mode, State.line_onLine_same]
  rfl

/-! ### Line tests -/

/-- R141: the end of a line test leaves its line in OFF, at rest. -/
theorem State.LinesWorkable.testEnded (h : s.LinesWorkable l) {t : LineTest} {status : TestStatus}
    (ht : (s.line l).test.isSome) : (testEnded l t status s).LinesSound := by
  have w := h.1
  have hm : (s.line l).mode = .test := w.test.1 ht
  have idle : (s.line l).sending = none := by
    by_contra hx
    simpa [hm] using (w.exchange (Option.isSome_iff_ne_none.2 hx)).1
  refine State.Calm.sound (State.Calm.of_line (.refl _) fun m => by cases m <;> rfl) (h.onLine (f := fun ln =>
    lineNoticed
      { ln with
        test := none, mode := .off, awaitsMark := false, assembler := none
        counters := abandonedIf ln.assembler.isSome ln.counters } .testEnded) ?_)
  refine Line.Workable.sound { w with
    exchange := fun k => ?_
    scan := fun k => ?_
    test := by simp [lineNoticed]
    stuck := fun k => ?_
    assembler := nofun } (fun k => ?_)
  · exact absurd (show (s.line l).sending.isSome from k) (by simp [idle])
  · simpa [hm] using (w.scan k).1
  · simpa [hm] using (w.stuck k).1
  · exact absurd (idle.symm.trans k) nofun

theorem State.LinesWorkable.endTest (h : s.LinesWorkable l) {status : TestStatus} (ht : (s.line l).test.isSome) :
    (endTest l status s).LinesSound := by
  obtain ⟨t, hs⟩ := Option.isSome_iff_exists.1 ht
  rw [endTest_eq status hs]
  exact h.testEnded ht

theorem State.LinesSound.judgeTest (h : s.LinesSound) {matched : Bool} : (judgeTest l matched s).LinesSound := by
  cases ht : (s.line l).test with
  | none =>
    unfold Machine.judgeTest
    rwa [ht]
  | some t =>
    rw [judgeTest_eq matched ht]
    split
    · exact ((State.Calm.refl s).onLine { test := by simp [ht] }).sound h
    · exact (h.workable l).testEnded (by simp [ht])

theorem State.LinesSound.testHandedUp (h : s.LinesSound) {u : HandedUp} : (testHandedUp l u s).LinesSound := by
  unfold Machine.testHandedUp
  split
  · exact h
  next t ht =>
    split
    · exact ((State.Calm.refl s).onLine { test := by simp [ht] }).sound h
    · exact h.judgeTest
    · exact h

theorem State.LinesSound.testAwaits (h : s.LinesSound) : (testAwaits l s).LinesSound := by
  have awaits : (s.onLine l fun ln => { ln with
      test := ln.test.map fun t => { t with phase := .awaiting, timer := some ln.config.replyStart } }).LinesSound :=
    ((State.Calm.refl s).onLine { test := by simp }).sound h
  unfold Machine.testAwaits
  dsimp only
  split
  · exact awaits
  · exact awaits.judgeTest

/-! ### The receiver -/

theorem State.LinesSound.handUp (h : s.LinesSound) {u : HandedUp} : (handUp l u s).LinesSound := by
  unfold Machine.handUp
  split
  · exact h
  · exact (State.Calm.refl s).judgeReply.sound h
  · exact (State.Calm.refl s).captureFrame.sound h
  · exact h.testHandedUp

theorem State.LinesSound.abandonFrame (h : s.LinesSound) {cs : List Byte} {fe : Bool} {c : AbandonCause} :
    (abandonFrame l cs fe c s).LinesSound := by
  have seeks : s.Calm (s.onLine l fun ln => { ln with assembler := none, counters := ln.counters.countAbandoned }) :=
    (State.Calm.refl s).onLine { assembler := nofun }
  exact (seeks.sound h).handUp

theorem State.LinesSound.takeCharacter (h : s.LinesSound) {k : CharacterClass} {b : Byte} {fe : Bool}
    (hm : (s.line l).mode ≠ .off) : (takeCharacter l k b fe s).LinesSound := by
  have received : s.Calm (Machine.receiveCharacter l fe s) := (State.Calm.refl s).receiveCharacter
  have on : ((Machine.receiveCharacter l fe s).line l).mode ≠ .off := (received l).mode ▸ hm
  unfold Machine.takeCharacter
  dsimp only
  split
  · exact (State.Calm.refl s).receiveStray.sound h
  · unfold beginFrame
    split
    · exact (received.holdPartial on).beginReply.sound h
    · exact ((received.countLine.holdPartial (by simpa [countLine] using on)).sound h).handUp
  · exact (received.holdPartial on).sound h
  · exact (received.sound h).abandonFrame
  · have completed : s.Calm ((Machine.receiveCharacter l fe s).onLine l fun ln => { ln with
        assembler := none
        counters := ln.counters.countFrame (extendedFrame l b fe s).2
          (⟨(extendedFrame l b fe s).1, (extendedFrame l b fe s).2, none⟩ : HandedUp).crcMatches }) :=
      received.onLine { assembler := nofun }
    exact (completed.sound h).handUp

theorem Line.mode_of_classify {ln : Line} {b : Byte} {mark : Bool} {k : CharacterClass}
    (h : ln.classify b mark = some k) : ln.mode ≠ .off := by
  intro hm
  rw [Line.classify_of_not_seeking (by simp [Line.seeksEdge, Line.receiverEnabled, hm])] at h
  cases h

theorem State.LinesSound.characterEvent (h : s.LinesSound) {k : CharacterClass} {b : Byte} {mark fe : Bool} :
    (characterEvent l k b mark fe s).LinesSound := by
  unfold Machine.characterEvent
  split
  next ht =>
    simp only [Line.takes, Bool.and_eq_true, beq_iff_eq] at ht
    exact h.takeCharacter (Line.mode_of_classify ht.2)
  next => exact h

theorem State.LinesSound.deliverLoop (h : s.LinesSound) : (deliverLoop l s).LinesSound := by
  unfold Machine.deliverLoop
  split
  · exact h
  · split
    · exact h
    next hk => exact h.takeCharacter (Line.mode_of_classify hk)

/-! ### The transmitter -/

theorem State.LinesSound.testCharacterLeft (h : s.LinesSound) : (testCharacterLeft l s).LinesSound :=
  ((State.Calm.refl _).onLine { test := by simp }).sound h.deliverLoop

theorem State.LinesSound.testFrameLeft (h : s.LinesSound) : (testFrameLeft l s).LinesSound := by
  have left : (Machine.deliverLoop l s).Calm (Machine.testFrameLeft l s) :=
    State.Calm.countLine ((State.Calm.refl _).onLine { test := by simp })
  exact left.sound h.deliverLoop

/-- R44: of the lines, a frame that has left takes its exchange to GUARD and changes the rest calmly. -/
theorem exchangeFrameLeft_calm (l : LineId) (x : Exchange) (s : State) :
    ∃ u, s.Calm u
      ∧ (onExchange l (fun x => { x with phase := .guard, charsSent := x.frame.length }) u).Calm
          (exchangeFrameLeft l x s) := by
  refine ⟨onCarried x (fun r => { r with transmitted := true }) (countLine l LineCounters.countSent s),
    (State.Calm.refl s).countLine.onCarried, ?_⟩
  exact .ite (fun _ => (State.Calm.refl _).completeCarried.decideOutcome) fun _ => .refl _

/-- R44: the frame leaves from TRANSMIT to GUARD, which drives the line too. -/
theorem State.LinesSound.exchangeFrameLeft (h : s.LinesSound) {x : Exchange} (hs : (s.line l).sending = some true) :
    (exchangeFrameLeft l x s).LinesSound := by
  obtain ⟨u, calm, left⟩ := exchangeFrameLeft_calm l x s
  refine left.sound ((State.Calm.onExchange calm fun y hy => ?_).sound h)
  rw [← (calm l).sending, Line.sending_of_exchange hy] at hs
  exact (Option.some.inj hs).symm

/-- R25, R65: the character in the shift path completes, whatever it is. -/
theorem State.LinesSound.completeShift (h : s.LinesSound) : (completeShift l s).LinesWorkable l := by
  unfold Machine.completeShift
  split
  next x _ =>
    split
    · exact ((State.Calm.refl s).onExchange.sound h).workable l
    · obtain ⟨u, calm, left⟩ := exchangeFrameLeft_calm l x s
      have sound := calm.sound h
      have w := (sound l).workable
      have sends : ∀ f : Exchange → Exchange, (({ u.line l with exchange := (u.line l).exchange.map f }).sending).isSome
          = (u.line l).sending.isSome := by simp [Line.sending]
      refine left.workable ⟨?_, fun m hm => ?_⟩
      · rw [onExchange, State.line_onLine_same]
        exact { w with
          exchange := fun k => w.exchange (sends _ ▸ k)
          driver := fun k => (w.driver k).imp_right fun k => by
            obtain ⟨y, hy, -⟩ := Line.sending_eq_true.1 k
            simp [Line.sending, hy, Phase.drives]
          restart := fun k => Line.sending_eq_none.2 (by simp [Line.sending_eq_none.1 (w.restart k)]) }
      · rw [onExchange, State.line_onLine, if_neg hm]
        exact sound m
  · split
    · exact h.testCharacterLeft.workable l
    · exact h.testFrameLeft.workable l
  · exact h.workable l

/-- R25, R26: the release of the driver leaves a line workable. -/
theorem Line.Workable.released {ln : Line} (w : ln.Workable) {awaitsMark : Bool} :
    ({ ln with driver := false, ending := none, awaitsMark } : Line).Workable :=
  { w with
    stuck := fun k => ⟨(w.stuck k).1, rfl⟩
    driver := nofun
    restart := nofun
    looped := nofun
    ending := nofun }

theorem State.LinesWorkable.releaseDriver (h : s.LinesWorkable l) : (releaseDriver l s).LinesWorkable l := by
  refine ⟨?_, fun m hm => ?_⟩
  · rw [Machine.releaseDriver, State.line_onLine_same]
    exact h.1.released
  · rw [Machine.releaseDriver, State.line_onLine, if_neg hm]
    exact h.2 m hm

/-- R24: a line whose driver is released while its exchange goes on to a phase that does not drive it. -/
theorem Line.Workable.quiet {a b : Line} (w : a.Workable) (hx : a.exchange.isSome) (hb : b.sending = some false)
    (calm : ({ a with driver := false, exchange := b.exchange } : Line).Calm b) : b.Sound := by
  have isSome : a.sending.isSome := Line.sending_isSome.2 hx
  have sends : ({ a with driver := false, exchange := b.exchange } : Line).sending = some false := hb
  refine calm.sound (Line.Workable.sound { w with
    exchange := fun _ => w.exchange isSome
    stuck := fun k => ⟨(w.stuck k).1, rfl⟩
    driver := nofun
    restart := fun k => by simp [w.restart k] at isSome
    looped := fun _ _ => rfl } (by simp [sends]))

/-- R45: the end of GUARD. -/
theorem State.LinesSound.endGuard (h : s.LinesSound) {x : Exchange} (hx : (s.line l).exchange = some x) :
    (endGuard l x s).LinesSound := by
  have w := (h l).workable
  unfold Machine.endGuard
  dsimp only
  split
  · unfold Machine.enterGap
    rw [State.onLine_onLine]
    exact h.onLine (w.quiet (by simp [hx]) (by simp [Line.sending, hx, Phase.drives]) { assembler := nofun })
  · rw [State.onLine_onLine]
    exact h.onLine (w.quiet (by simp [hx]) (by simp [Line.sending, hx, Phase.drives]) {})

/-! ### Modes -/

/-- A line without an exchange, a scan or a test. -/
structure Line.Idle (ln : Line) : Prop where
  exchange : ln.exchange = none
  scan : ln.scan = none
  mode : ln.mode ≠ .test

theorem Line.Calm.idle {a b : Line} (h : a.Calm b) (ha : a.Idle) : b.Idle where
  exchange := by rw [← Line.sending_eq_none, h.sending, Line.sending_eq_none, ha.exchange]
  scan := by
    by_contra hb
    simpa [ha.scan] using h.scan (Option.isSome_iff_ne_none.2 hb)
  mode := h.mode ▸ ha.mode

theorem endScan_scan (l : LineId) (status : ScanStatus) (s : State) : ((endScan l status s).line l).scan = none := by
  unfold endScan
  split
  next h => exact h
  next => simp

/-- R137: the cut-off of an exchange and the end of the scan leave a line idle. -/
theorem endScan_cutOff_idle (status : ScanStatus) (hm : (s.line l).mode ≠ .test) :
    ((endScan l status (cutOff l s)).line l).Idle where
  exchange := by
    rw [← Line.sending_eq_none, (((State.Calm.refl _).endScan (status := status)) l).sending, Line.sending_eq_none]
    exact cutOff_exchange l s
  scan := endScan_scan ..
  mode := by rwa [((State.Calm.refl (cutOff l s)).endScan l).mode, cutOff_mode]

/-- R125: a workable line in OFF or MONITOR is sound, and idle. -/
theorem Line.Workable.idle {ln : Line} (w : ln.Workable) (hm : ln.mode ≠ .active) (ht : ln.mode ≠ .test) : ln.Idle where
  exchange := by
    rw [← Line.sending_eq_none]
    by_contra k
    exact hm (w.exchange (Option.isSome_iff_ne_none.2 k)).1
  scan := by
    by_contra k
    exact hm (w.scan (Option.isSome_iff_ne_none.2 k)).1
  mode := ht

theorem Line.Idle.sound {ln : Line} (h : ln.Idle) (w : ln.Workable) : ln.Sound :=
  w.sound (by simp [Line.sending, h.exchange])

theorem State.LinesWorkable.sound_of_idle (h : s.LinesWorkable l) (hi : (s.line l).Idle) : s.LinesSound := fun m => by
  by_cases hm : m = l
  · subst hm
    exact hi.sound h.1
  · exact h.2 m hm

theorem testEnded_idle (h : s.LinesWorkable l) (hm : (s.line l).mode = .test) (t : LineTest) (status : TestStatus) :
    ((testEnded l t status s).line l).Idle := by
  have w := h.1
  have line : (testEnded l t status s).line l = lineNoticed
      { s.line l with
        test := none, mode := .off, awaitsMark := false, assembler := none
        counters := abandonedIf (s.line l).assembler.isSome (s.line l).counters } .testEnded := by
    cases l <;> rfl
  rw [line]
  refine ⟨?_, ?_, nofun⟩
  · rw [← Line.sending_eq_none]
    by_contra k
    exact absurd ((w.exchange (Option.isSome_iff_ne_none.2 k)).1.symm.trans hm) nofun
  · by_contra k
    exact absurd ((w.scan (Option.isSome_iff_ne_none.2 k)).1.symm.trans hm) nofun

theorem endTest_sound_idle (h : s.LinesWorkable l) (hm : (s.line l).mode = .test) (status : TestStatus) :
    (endTest l status s).LinesSound ∧ ((endTest l status s).line l).Idle := by
  have ht : (s.line l).test.isSome := h.1.test.2 hm
  refine ⟨h.endTest ht, ?_⟩
  obtain ⟨t, ht⟩ := Option.isSome_iff_exists.1 ht
  rw [endTest_eq status ht]
  exact testEnded_idle h hm t status

/-- R126: the line's work ends, and leaves the line sound and idle. -/
theorem endLineWork_sound_idle (h : s.LinesWorkable l) :
    (endLineWork l s).LinesSound ∧ ((endLineWork l s).line l).Idle := by
  unfold endLineWork
  split
  next hm => exact endTest_sound_idle h hm _
  next hm =>
    have calm : (endScan l .modeChange (cutOff l s)).Calm ((endScan l .modeChange (cutOff l s)).onLine l fun ln =>
        { ln with commandCount := 0, scanCount := 0 }) := (State.Calm.refl _).onLine
    exact ⟨calm.sound ((State.Calm.refl _).endScan.sound h.cutOff), (calm l).idle (endScan_cutOff_idle _ (by simp [hm]))⟩
  next hm hm' =>
    have idle := h.1.idle hm' hm
    exact ⟨h.sound_of_idle idle, idle⟩

theorem endWorkForReset_sound_idle (h : s.LinesWorkable l) :
    (endWorkForReset l s).LinesSound ∧ ((endWorkForReset l s).line l).Idle := by
  unfold endWorkForReset
  split
  next hm => exact endTest_sound_idle h hm _
  next hm =>
    exact ⟨(State.Calm.refl _).endScan.sound h.cutOff, endScan_cutOff_idle _ (by simp [hm])⟩
  next hm hm' =>
    have idle := h.1.idle hm' hm
    exact ⟨h.sound_of_idle idle, idle⟩

theorem Line.Idle.sending {ln : Line} (h : ln.Idle) : ln.sending = none := Line.sending_eq_none.2 h.exchange

theorem Line.driver_ending {ln : Line} (h : ln.Idle) (w : ln.Workable) (hd : ln.driver = true) : ln.ending.isSome :=
  (w.driver hd).resolve_right (by simp [h.sending])

/-- R126: taking a mode that SET_LINE_MODE names leaves an idle line sound. -/
theorem State.LinesSound.modeTaken (h : s.LinesSound) (hi : (s.line l).Idle) {m : LineMode} (hm : m ≠ .test) :
    (modeTaken l m s).LinesSound := by
  have w := (h l).workable
  have ends : (s.line l).driver = true → (s.line l).ending.isSome := Line.driver_ending hi w
  have noTest : (s.line l).test.isSome = false := by
    by_contra k
    exact hi.mode (w.test.1 (Bool.of_not_eq_false k))
  refine h.onLine (Line.Workable.sound { w with
    exchange := fun k => by simp [Line.sending, lineNoticed, hi.exchange] at k
    scan := fun k => by simp [lineNoticed, hi.scan] at k
    test := by simp [lineNoticed, noTest, hm]
    stuck := fun k => ?_
    assembler := nofun
    driver := fun k => .inl ?_
    looped := fun c k => ?_ } (by simp [Line.sending, lineNoticed, hi.exchange]))
  · simp only [lineNoticed] at k ⊢
    split at k
    next => cases k
    next hoff =>
      obtain ⟨-, hd⟩ := w.stuck k
      refine ⟨?_, by simp [hd]⟩
      cases m <;> simp_all
  · simp only [lineNoticed] at k
    split at k
    · exact ends k
    · simp only [Bool.and_eq_true] at k
      exact ends k.1
  · simp only [lineNoticed] at k ⊢
    simp [w.looped c k]

theorem State.LinesWorkable.changeMode (h : s.LinesWorkable l) {m : LineMode} (hm : m ≠ .test) :
    (changeMode l m s).LinesSound := by
  obtain ⟨sound, idle⟩ := endLineWork_sound_idle h
  by_cases same : ((endLineWork l s).line l).mode = m
  · rwa [changeMode_same same]
  · rw [changeMode_eq hm same]
    exact sound.modeTaken idle hm

theorem State.LinesWorkable.resetLineNow (h : s.LinesWorkable l) : (resetLineNow l s).LinesSound := by
  obtain ⟨sound, idle⟩ := endWorkForReset_sound_idle h
  have w := (sound l).workable
  have cleared : ((endWorkForReset l s).onLine l clearLine).LinesSound := by
    refine sound.onLine (Line.Workable.sound { w with
      exchange := fun k => by simp [Line.sending, clearLine, idle.exchange] at k
      scan := fun k => by simp [clearLine, idle.scan] at k
      test := ?_
      stuck := nofun
      assembler := nofun
      driver := fun k => .inl (Line.ending_of_afterRestart (Line.driverOff_eq_true.1 k).2)
      looped := fun c k => Line.driverOff_of_false (w.looped c k) } (by simp [Line.sending, clearLine, idle.exchange]))
    have noTest : ¬((endWorkForReset l s).line l).test.isSome := fun k => idle.mode (w.test.1 k)
    simp only [clearLine]
    exact ⟨fun k => absurd k noTest, nofun⟩
  exact ((State.Calm.refl _).foldl_resetStation _).raiseLineNotice.sound cleared

end

end Sys2Proof.Machine
end

section
/-! PROOF. Every row of the table, and so every step, leaves the line columns sound. -/

namespace Sys2Proof.Machine

section
variable {s t : State} {l : LineId}

/-! ### STUCK, the scheduler, the gap -/

/-- R29, R66: a line without its driver in ACTIVE or MONITOR, cut short and its scan ended, is sound with STUCK raised. -/
theorem State.LinesSound.takeStuck (h : s.LinesSound) (hm : (s.line l).measuresStuck = true) :
    (takeStuck l s).LinesSound := by
  simp only [Line.measuresStuck, Bool.and_eq_true, Bool.or_eq_true, beq_iff_eq, Bool.not_eq_true'] at hm
  obtain ⟨mode, released⟩ := hm
  have w := (h l).workable
  have line : (raiseStuck l s).line l = lineNoticed
      { s.line l with
        stuck := true
        counters := { (s.line l).counters with stuckEvents := bump (s.line l).counters.stuckEvents } } .stuck := by
    simp [raiseStuck, raiseLineNotice, lineNoticed]
  have other (m : LineId) (hl : m ≠ l) : (raiseStuck l s).line m = s.line m := by
    simp [raiseStuck, raiseLineNotice, State.line_onLine, hl]
  unfold Machine.takeStuck
  dsimp only
  split
  next monitor =>
    have monitor : (s.line l).mode = .monitor := by rwa [line] at monitor
    have idle := w.idle (by simp [monitor]) (by simp [monitor])
    have raised : (raiseStuck l s).LinesSound := by
      intro m
      by_cases hl : m = l
      · subst hl
        rw [line]
        exact Line.Workable.sound { w with
          exchange := fun k => absurd idle.sending (Option.isSome_iff_ne_none.1 k)
          scan := fun k => absurd idle.scan (Option.isSome_iff_ne_none.1 k)
          stuck := fun _ => ⟨mode, released⟩ } (by simp [Line.sending, lineNoticed, idle.exchange])
      · rw [other m hl]
        exact h m
    unfold stuckInMonitor
    split
    · exact raised
    · exact raised.abandonFrame
  next =>
    have cut := (cutOff_calm l (raiseStuck l s)).trans ((State.Calm.refl _).endScan (l := l) (status := .lineFault))
    intro m
    by_cases hl : m = l
    · subst hl
      have calm := cut m
      rw [State.line_onLine_same, line] at calm
      have exchange : ((endScan m .lineFault (cutOff m (raiseStuck m s))).line m).sending = none := calm.sending
      have shown : ({ s.line m with
          stuck := true, driver := (s.line m).driverOff, assembler := none, exchange := none
          scan := ((endScan m .lineFault (cutOff m (raiseStuck m s))).line m).scan } : Line).Calm
          ((endScan m .lineFault (cutOff m (raiseStuck m s))).line m) := { calm with scan := id }
      refine shown.sound (Line.Workable.sound { w with
        exchange := nofun
        scan := fun k => by simp [endScan_scan] at k
        stuck := fun _ => ⟨mode, Line.driverOff_of_false released⟩
        assembler := nofun
        driver := fun k => by simp [Line.driverOff_of_false released] at k
        restart := fun _ => rfl
        looped := fun _ _ => Line.driverOff_of_false released } nofun)
    · have calm := cut m
      rw [State.line_onLine, if_neg hl, other m hl] at calm
      exact calm.sound (h m)

theorem Line.afterRestart_of_ending {ln : Line} (h : ln.ending = none) : ln.afterRestart = none := by
  simp [Line.afterRestart, h]

/-- R71: a free line of those that a calm change leaves is as free as before. -/
theorem Line.Calm.free {a b : Line} (h : a.Calm b) (ha : a.free = true) : b.free = true := by
  have idle : b.exchange = none ↔ a.exchange = none := by
    rw [← Line.sending_eq_none, ← Line.sending_eq_none, h.sending]
  simpa [Line.free, h.mode, h.stuck, h.ending, idle] using ha

theorem State.LinesSound.startExchange_of_free (h : s.LinesSound) {kind : ExchangeKind} {station : Option Nat}
    {target : Nat} {record : Option Half} {holds toggle : Bool} {payload : List Byte} (hf : (s.line l).free = true) :
    (Machine.startExchange l kind station target record holds toggle payload s).LinesSound := by
  simp only [Line.free, Bool.and_eq_true, beq_iff_eq, Bool.not_eq_true', Option.isNone_iff_eq_none] at hf
  obtain ⟨⟨⟨mode, stuck⟩, -⟩, ending⟩ := hf
  exact h.startExchange mode stuck (Line.afterRestart_of_ending ending)

theorem State.LinesSound.chooseWork (h : s.LinesSound) (hf : (s.line l).free = true) : (chooseWork l s).LinesSound := by
  have starts {u : State} (calm : s.Calm u) {kind station target record holds toggle payload} :
      (Machine.startExchange l kind station target record holds toggle payload u).LinesSound :=
    (calm.sound h).startExchange_of_free ((calm l).free hf)
  unfold Machine.chooseWork
  split
  · split
    · exact h
    · unfold takeRecord
      dsimp only
      split
      · exact starts (State.Calm.refl s).onLine
      · split
        · exact (State.Calm.refl s).onLine.sound h
        · exact starts (State.Calm.refl s).onLine
  · split
    · split
      · exact h
      · unfold takePoll
        split
        · exact h
        · exact starts (((State.Calm.refl s).of_line (u := grant s)).setStation.onLine)
    · split
      · split
        · exact h
        · unfold takeProbe
          split
          · exact h
          · exact starts (((State.Calm.refl s).of_line (u := grant s)).setStation.onLine)
      · exact h

theorem State.LinesSound.choose (h : s.LinesSound) (hf : (s.line l).free = true) : (choose l s).LinesSound := by
  unfold Machine.choose
  split
  · exact h.chooseWork hf
  next sc hsc =>
    split
    · have ended : s.Calm (endScan l .complete s) := (State.Calm.refl s).endScan
      exact (ended.sound h).chooseWork ((ended l).free hf)
    · split
      · have named (ln : Line → Scan) (scanCount commandCount : Line → Nat) : s.Calm (s.onLine l fun x =>
            { x with scan := some (ln x), scanCount := scanCount x, commandCount := commandCount x }) :=
          (State.Calm.refl s).onLine { scan := by simp [hsc] }
        exact ((named _ _ _).sound h).startExchange_of_free ((named _ _ _ l).free hf)
      · next address _ _ =>
        have passed : s.Calm (s.onLine l fun ln => { ln with scan := some { sc with next := address } }) :=
          (State.Calm.refl s).onLine { scan := by simp [hsc] }
        exact (passed.sound h).chooseWork ((passed l).free hf)

theorem exchangeIn_eq_some {p : Phase} {x : Exchange} :
    exchangeIn l p s = some x ↔ (s.line l).exchange = some x ∧ x.phase = p := by
  simp [exchangeIn, Option.filter_eq_some_iff]

theorem Line.sending_of_phase {ln : Line} {x : Exchange} {p : Phase} (hx : ln.exchange = some x) (hp : x.phase = p) :
    ln.sending = some p.drives := hp ▸ Line.sending_of_exchange hx

theorem State.LinesSound.expireGap (h : s.LinesSound) {x : Exchange} (hx : (s.line l).exchange = some x)
    (hp : x.phase = .gap) : (expireGap l x s).LinesSound := by
  have quiet : (s.line l).sending ≠ some true := by
    rw [Line.sending_of_phase hx hp]
    decide
  unfold Machine.expireGap
  split
  · exact h.endExchange quiet
  · split
    · have done : s.Calm (completeCarried x .cancelled [] s) := (State.Calm.refl s).completeCarried
      exact (done.sound h).endExchange ((done l).sending ▸ quiet)
    · have w := (h l).workable
      have isSome : (s.line l).sending.isSome := by simp [Line.sending_of_exchange hx]
      obtain ⟨mode, stuck⟩ := w.exchange isSome
      refine h.beginAttempt mode stuck ?_
      by_contra k
      simp [w.restart (Option.isSome_iff_ne_none.2 k)] at isSome

/-! ### Requests -/

theorem takeRequest_sound {code : Nat} {inClosed : Bool} {apply : List Byte → State → Applied}
    (ha : ∀ body u, u.LinesSound → (apply body u).state.LinesSound) (h : s.LinesSound) :
    (takeRequest code inClosed apply s).LinesSound := by
  have same {u v : State} (hu : u.LinesSound) (hl : ∀ m, v.line m = u.line m) : v.LinesSound := fun m => by
    rw [hl]
    exact hu m
  unfold takeRequest
  split
  · exact h
  next r rest _ =>
    have taken : (s.onLink fun k => { k with intake := rest }).LinesSound := same h fun _ => rfl
    split
    · dsimp only
      split
      · exact same taken fun _ => rfl
      · split
        · exact same taken fun _ => rfl
        · split
          · exact same (ha _ _ taken) fun _ => rfl
          · exact same (ha _ _ taken) fun _ => rfl
    · exact h

/-- A request that is calm keeps the lines sound. -/
theorem takeRequest_sound_of_calm {code : Nat} {inClosed : Bool} {apply : List Byte → State → Applied}
    (ha : ∀ body u, State.Calm u (apply body u).state) (h : s.LinesSound) :
    (takeRequest code inClosed apply s).LinesSound := takeRequest_sound (fun body u hu => (ha body u).sound hu) h

theorem withLine_calm {body : List Byte} {f : LineId → Applied} (hf : ∀ l, s.Calm (f l).state) :
    s.Calm (withLine body s f).state := by
  unfold withLine
  split
  · exact .refl s
  · exact hf _

theorem withLine_sound {body : List Byte} {f : LineId → Applied} (h : s.LinesSound)
    (hf : ∀ l, (f l).state.LinesSound) : (withLine body s f).state.LinesSound := by
  unfold withLine
  split
  · exact h
  · exact hf _

theorem withStation_calm {body : List Byte} {f : Nat → Station → Applied} (hf : ∀ n e, s.Calm (f n e).state) :
    s.Calm (withStation body s f).state := by
  unfold withStation
  dsimp only
  split
  · exact .refl s
  · split
    · exact .refl s
    · exact hf _ _

theorem acceptRecord_calm (tag : Half) (n : Option Nat) (l : LineId) (d : List Byte) (s : State) :
    s.Calm (acceptRecord tag n l d s) := (State.Calm.refl s).of_line fun _ => rfl

theorem submitForStation_calm (n : Nat) (e : Station) (body : List Byte) (s : State) :
    s.Calm (submitForStation n e body s).state := by
  unfold submitForStation
  split
  · exact .refl s
  · split
    · exact .refl s
    · split
      · exact .refl s
      · split
        · exact .refl s
        · exact acceptRecord_calm _ _ _ _ s

theorem applySubmitCommand_calm (body : List Byte) (s : State) : s.Calm (applySubmitCommand body s).state := by
  unfold applySubmitCommand
  dsimp only
  split
  · exact .refl s
  · split
    · exact .refl s
    · split
      · exact .refl s
      · exact .refl s
      · exact submitForStation_calm _ _ body s
      · exact submitForStation_calm _ _ body s
      · exact submitForStation_calm _ _ body s

theorem applySubmitBroadcast_calm (body : List Byte) (s : State) : s.Calm (applySubmitBroadcast body s).state := by
  unfold applySubmitBroadcast
  split
  · exact .refl s
  · split
    · exact .refl s
    · split
      · exact .refl s
      · split
        · exact .refl s
        · split
          · exact .refl s
          · exact acceptRecord_calm _ _ _ _ s

theorem applyCancelCommand_calm (body : List Byte) (s : State) : s.Calm (applyCancelCommand body s).state := by
  unfold applyCancelCommand
  split
  · exact .refl s
  · split
    · exact (State.Calm.refl s).of_line fun _ => completeRecord_line ..
    · exact (State.Calm.refl s).of_line fun _ => rfl

theorem applyDefineStation_calm (body : List Byte) (s : State) : s.Calm (applyDefineStation body s).state := by
  unfold applyDefineStation
  split
  · exact .refl s
  · split
    · exact .refl s
    · split
      · exact .refl s
      · refine State.Calm.onStation (.ite (fun _ => ?_) fun _ => ?_)
        · exact (State.Calm.refl s).setStation.enterProbing
        · exact (State.Calm.refl s).setStation.onStation.leaveProbeLists

theorem applyModifyStation_calm (body : List Byte) (s : State) : s.Calm (applyModifyStation body s).state := by
  unfold applyModifyStation
  split
  · exact .refl s
  · exact withStation_calm fun _ _ => (State.Calm.refl s).setStation

theorem applyRemoveStation_calm (body : List Byte) (s : State) : s.Calm (applyRemoveStation body s).state := by
  refine withStation_calm fun n _ => ?_
  split
  · exact .refl s
  · exact (State.Calm.refl s).completeAllOf.leaveProbeLists.setStation

theorem applyEnableStation_calm (body : List Byte) (s : State) : s.Calm (applyEnableStation body s).state := by
  refine withStation_calm fun n _ => ?_
  split
  · exact (State.Calm.refl s).onStation.enterProbing.onStation
  · exact (State.Calm.refl s).setStation

theorem applyDisableStation_calm (body : List Byte) (s : State) : s.Calm (applyDisableStation body s).state := by
  refine withStation_calm fun n _ => ?_
  split
  · exact .refl s
  · split
    · exact (State.Calm.refl s).setStation
    · exact (State.Calm.refl s).disableTakesEffect

theorem applyReadStation_calm (body : List Byte) (s : State) : s.Calm (applyReadStation body s).state := by
  unfold applyReadStation
  dsimp only
  split
  · exact .refl s
  · split <;> exact .refl s

theorem applyRequestPoll_calm (body : List Byte) (s : State) : s.Calm (applyRequestPoll body s).state := by
  refine withStation_calm fun n _ => ?_
  split
  · exact (State.Calm.refl s).setStation
  · exact (State.Calm.refl s).setStation
  · exact .refl s
  · exact .refl s
  · exact .refl s

/-- R25: a request that waits for the character in the shift path, which is then none that RESTART has left. -/
theorem afterShift_sound {ending : LineEnding} {now : State → State} (h : s.LinesSound)
    (hn : (now s).LinesSound) (hr : ∀ c b, ending ≠ .restart c b) (ht : ending ≠ .modeChange .test) :
    (afterShift l ending now s).state.LinesSound := by
  unfold afterShift
  split
  next =>
    have w := (h l).workable
    have sound := Line.sound_iff.1 (h l)
    refine h.onLine (Line.sound_iff.2 ⟨{ w with
      driver := fun _ => .inl rfl
      restart := fun k => ?_
      looped := fun c k => absurd (Option.some.inj k) (hr c true)
      ending := by simpa using ht }, sound.2⟩)
    obtain ⟨⟨c, looped⟩, hc⟩ := Option.isSome_iff_exists.1 k
    exact absurd (Option.some.inj (Line.afterRestart_eq_some.1 hc)) (hr c looped)
  next => exact hn

theorem settableMode_ne_test {n : Nat} {m : LineMode} (h : settableMode n = some m) : m ≠ .test := by
  rintro rfl
  unfold settableMode at h
  split at h <;> simp at h

theorem applySetLineMode_sound (body : List Byte) (s : State) (h : s.LinesSound) :
    (applySetLineMode body s).state.LinesSound := by
  refine withLine_sound h fun l => ?_
  split
  · exact h
  next m hm =>
    split
    · exact h
    · exact afterShift_sound h ((h.workable l).changeMode (settableMode_ne_test hm)) nofun
        (by simpa using settableMode_ne_test hm)

theorem applyResetLine_sound (body : List Byte) (s : State) (h : s.LinesSound) :
    (applyResetLine body s).state.LinesSound :=
  withLine_sound h fun l => afterShift_sound h (h.workable l).resetLineNow nofun nofun

theorem applyConfigureLine_calm (body : List Byte) (s : State) : s.Calm (applyConfigureLine body s).state := by
  refine withLine_calm fun l => ?_
  split
  · exact .refl s
  · split
    · exact .refl s
    · exact (State.Calm.refl s).onLine

/-- R134: a scan starts in ACTIVE without STUCK. -/
theorem applyStartScan_sound (body : List Byte) (s : State) (h : s.LinesSound) :
    (applyStartScan body s).state.LinesSound := by
  refine withLine_sound h fun l => ?_
  split
  · exact h
  · split
    · exact h
    · split
      · exact h
      next hm =>
        split
        · exact h
        · simp only [not_or, not_not, Bool.not_eq_true] at hm
          have granted : s.Calm (grant s) := (State.Calm.refl s).of_line
          have sound := Line.sound_iff.1 (granted.sound h l)
          exact (granted.sound h).onLine (Line.sound_iff.2 ⟨{ sound.1 with scan := fun _ => hm }, sound.2⟩)

theorem applyCancelScan_calm (body : List Byte) (s : State) : s.Calm (applyCancelScan body s).state := by
  refine withLine_calm fun l => ?_
  split
  · exact .refl s
  · exact (State.Calm.refl s).endScan

/-- R139: a line test starts in OFF. -/
theorem State.LinesSound.startTest (h : s.LinesSound) (hm : (s.line l).mode = .off) (count : Nat) :
    (startTest l count s).LinesSound := by
  have granted : s.Calm (grant s) := (State.Calm.refl s).of_line
  have w := (granted.sound h l).workable
  have idle : (s.line l).Idle := (h l).workable.idle (by simp [hm]) (by simp [hm])
  have started : ((grant s).onLine l fun ln =>
      { ln with
        mode := .test, awaitsMark := false
        test := some ⟨count, 0, 0, 0, none, .sending, 0, false, none, none⟩ }).LinesSound :=
    (granted.sound h).onLine (Line.Workable.sound { w with
      exchange := fun k => absurd idle.sending (Option.isSome_iff_ne_none.1 k)
      scan := fun k => absurd idle.scan (Option.isSome_iff_ne_none.1 k)
      test := by simp
      stuck := fun k => by simpa [hm] using (w.stuck k).1
      assembler := nofun } (by simp [Line.sending, idle.exchange]))
  exact (State.Calm.refl _).raiseLineNotice.sound started

theorem applyStartLineTest_sound (body : List Byte) (s : State) (h : s.LinesSound) :
    (applyStartLineTest body s).state.LinesSound := by
  refine withLine_sound h fun l => ?_
  split
  · exact h
  · split
    · exact h
    · split
      · exact h
      next hm =>
        split
        · exact h
        · exact h.startTest (Decidable.not_not.1 hm) _

theorem applyReadLineStatus_calm (body : List Byte) (s : State) : s.Calm (applyReadLineStatus body s).state := by
  refine withLine_calm fun l => ?_
  split
  · exact .ite (fun _ => (State.Calm.refl s).of_line fun m => by cases m <;> rfl) fun _ => .refl s
  · exact .refl s
  · exact .refl s

theorem applyOpenSession_calm (body : List Byte) (s : State) : s.Calm (applyOpenSession body s).state := by
  unfold applyOpenSession
  dsimp only
  split
  · exact (State.Calm.refl s).of_line fun m => by
      unfold openSession
      split <;> rfl
  · exact .refl s

theorem applyReadLinkStatus_calm (body : List Byte) (s : State) : s.Calm (applyReadLinkStatus body s).state :=
  .ite (fun _ => (State.Calm.refl s).of_line fun _ => rfl) fun _ => .refl s

theorem applyMask_calm (value : Bool) (body : List Byte) (s : State) : s.Calm (applyMask value body s).state := by
  unfold applyMask
  split
  · exact .refl s
  · exact (State.Calm.refl s).of_line fun m => by cases m <;> rfl

theorem applyAssignOutput_calm (body : List Byte) (s : State) : s.Calm (applyAssignOutput body s).state := by
  unfold applyAssignOutput
  split
  · exact .refl s
  · split
    · exact .refl s
    · exact (State.Calm.refl s).of_line fun m => by cases m <;> rfl

/-! ### Restart and power-on -/

/-- R23, R25, R69: what RESTART leaves of a line. -/
theorem Line.restarted_sound (ln : Line) (list : List Nat) : (ln.restarted list).Sound := by
  refine Line.Workable.sound {
    exchange := nofun
    scan := nofun
    test := by simp [Line.restarted, Line.powerOn]
    stuck := nofun
    assembler := nofun
    driver := fun k => .inl ?_
    restart := fun _ => rfl
    looped := fun c k => ?_
    ending := ?_ } nofun
  · show ln.restartEnding.isSome
    obtain ⟨c, hc⟩ := Option.isSome_iff_exists.1 (show ln.pinCharacter.isSome from k)
    simp [Line.restartEnding_of_pin hc]
  · show ln.pinCharacter.isSome = false
    cases hp : ln.pinCharacter with
    | none => rfl
    | some d => exact absurd ((Line.restartEnding_of_pin hp).symm.trans k) (by simp)
  · show ln.restartEnding ≠ _
    rw [Line.restartEnding_eq]
    cases ln.completing <;> simp

theorem takeRestart_linesSound (s : State) : (takeRestart s).LinesSound
  | .a => Line.restarted_sound _ _
  | .b => Line.restarted_sound _ _

theorem Line.powerOn_sound (rxMark : Bool) : ({ Line.powerOn with rxMark } : Line).Sound :=
  Line.Workable.sound {
    exchange := nofun
    scan := nofun
    test := by simp [Line.powerOn]
    stuck := nofun
    assembler := nofun
    driver := nofun
    restart := nofun
    looped := nofun
    ending := nofun } nofun

theorem powerOnState_linesSound (s : State) : (powerOnState s).LinesSound
  | .a => Line.powerOn_sound _
  | .b => Line.powerOn_sound _

/-! ### The rows -/

theorem hostFrameEnd_linesSound (h : s.LinesSound) (he : execHostFrameEnd s = .next t) : t.LinesSound := by
  obtain rfl := Host.Outcome.next.inj he
  have ended : s.Calm (endHostFrame s) := (State.Calm.refl s).of_line fun _ => rfl
  split
  · exact h
  · split
    · exact takeRestart_linesSound s
    · exact ended.restartAckTimer.startHostFrame.sound h
    · exact ended.startHostFrame.sound h
    · exact ended.startHostFrame.sound h

theorem driverRelease_linesSound (h : s.LinesSound) (he : execDriverRelease l s = .next t) : t.LinesSound := by
  obtain rfl := Host.Outcome.next.inj he
  split
  · exact h
  next c looped hc =>
    have idle : (s.line l).exchange = none :=
      Line.sending_eq_none.1 ((h l).workable.restart (by simp [Line.afterRestart_eq_some.2 hc]))
    have released := (h.workable l).releaseDriver
    intro m
    by_cases hm : m = l
    · subst hm
      exact released.1.sound (by simp [releaseDriver, Line.sending, idle])
    · exact released.2 m hm
  next m hm =>
    have settable : m ≠ .test := by
      rintro rfl
      exact (h l).workable.ending hm
    exact (State.Calm.refl _).answerHeld.sound (h.completeShift.releaseDriver.changeMode settable)
  next => exact (State.Calm.refl _).answerHeld.sound h.completeShift.releaseDriver.resetLineNow

theorem characterSent_linesSound (h : s.LinesSound) (he : execCharacterSent l s = .next t) : t.LinesSound := by
  obtain rfl := Host.Outcome.next.inj he
  split
  · exact h
  · split
    · exact State.Calm.sound (.ite (fun _ => (State.Calm.refl s).onExchange) fun _ => .refl s) h
    · split
      · exact h.testCharacterLeft
      · exact h
    · exact h

theorem frameSent_linesSound (h : s.LinesSound) (he : execFrameSent l s = .next t) : t.LinesSound := by
  obtain rfl := Host.Outcome.next.inj he
  split
  · exact h
  · split
    next x _ hx =>
      split
      · obtain ⟨hx, hp⟩ := exchangeIn_eq_some.1 hx
        exact h.exchangeFrameLeft (by rw [Line.sending_of_phase hx hp]; rfl)
      · exact h
    · split
      · exact h.testFrameLeft.testAwaits
      · exact h
    · exact h

theorem replyStartTimeout_linesSound (h : s.LinesSound) (he : execReplyStartTimeout l s = .next t) : t.LinesSound := by
  obtain rfl := Host.Outcome.next.inj he
  split
  · exact h
  next x hx =>
    obtain ⟨hx, hp⟩ := exchangeIn_eq_some.1 hx
    have quiet : (s.line l).sending ≠ some true := by
      rw [Line.sending_of_phase hx hp]
      decide
    exact State.Calm.sound
      (.ite (fun _ => (State.Calm.refl s).endRollCall quiet) fun _ => (State.Calm.refl s).failAttempt quiet) h

theorem State.LinesSound.ite {p : Prop} [Decidable p] {u v : State} (hu : p → u.LinesSound) (hv : v.LinesSound) :
    (if p then u else v).LinesSound := by
  split
  next hp => exact hu hp
  next => exact hv

/-- R155: the draining of a notice. -/
theorem drainOne_calm (s : State) : s.Calm (drainOne s) := by
  have line (l : LineId) : s.Calm (drainLine l s) := State.Calm.onLine ((State.Calm.refl s).of_line) {}
  unfold drainOne
  refine .ite (fun _ => line .a) fun _ => .ite (fun _ => line .b) fun _ => ?_
  split
  · exact .refl s
  · unfold drainStation
    split
    · exact .refl s
    · exact State.Calm.setStation (State.Calm.refl s).of_line

/-- Every row of the table leaves the lines sound. -/
theorem exec_linesSound (i : Instr) (h : s.LinesSound) (he : exec i s = .next t) : t.LinesSound := by
  have link (f : Link → Link) : s.Calm (s.onLink f) := (State.Calm.refl s).of_line
  have same {u : State} (hl : ∀ l, u.line l = s.line l) : u.LinesSound := ((State.Calm.refl s).of_line hl).sound h
  cases i
  case hostFrameEnd => exact hostFrameEnd_linesSound h he
  case driverRelease => exact driverRelease_linesSound h he
  case characterSent => exact characterSent_linesSound h he
  case frameSent => exact frameSent_linesSound h he
  case replyStartTimeout => exact replyStartTimeout_linesSound h he
  all_goals obtain rfl := Host.Outcome.next.inj he
  case powerOn => exact powerOnState_linesSound s
  case powerOnResetEnd => exact .ite (fun _ => fun | .a => h .a | .b => h .b) h
  case byteDiscarded => exact .ite (fun _ => same fun _ => rfl) h
  case hostFrameDiscarded => exact .ite (fun _ => same fun _ => rfl) h
  case hostFrameGapTimeout => exact .ite (fun _ => same fun _ => rfl) h
  case requestArrival => exact .ite (fun _ => (link _).returnFromStall.arrive.sound h) h
  case ack => exact .ite (fun _ => (link _).returnFromStall.takeAck.sound h) h
  case identify => exact takeRequest_sound_of_calm (fun _ _ => .refl _) h
  case openSession => exact takeRequest_sound_of_calm applyOpenSession_calm h
  case closeSession => exact takeRequest_sound_of_calm (fun _ _ => (State.Calm.refl _).of_line fun _ => rfl) h
  case restart => exact takeRequest_sound_of_calm (fun _ _ => (State.Calm.refl _).of_line fun _ => rfl) h
  case restartTaken => exact .ite (fun _ => takeRestart_linesSound s) h
  case readLinkStatus => exact takeRequest_sound_of_calm applyReadLinkStatus_calm h
  case readQueueStatus => exact takeRequest_sound_of_calm (fun _ _ => .refl _) h
  case defineStation => exact takeRequest_sound_of_calm applyDefineStation_calm h
  case modifyStation => exact takeRequest_sound_of_calm applyModifyStation_calm h
  case removeStation => exact takeRequest_sound_of_calm applyRemoveStation_calm h
  case enableStation => exact takeRequest_sound_of_calm applyEnableStation_calm h
  case disableStation => exact takeRequest_sound_of_calm applyDisableStation_calm h
  case readStation => exact takeRequest_sound_of_calm applyReadStation_calm h
  case clearStationErrors =>
    exact takeRequest_sound_of_calm (fun _ u => withStation_calm fun _ _ => (State.Calm.refl u).setStation) h
  case requestPoll => exact takeRequest_sound_of_calm applyRequestPoll_calm h
  case submitCommand => exact takeRequest_sound_of_calm applySubmitCommand_calm h
  case submitBroadcast => exact takeRequest_sound_of_calm applySubmitBroadcast_calm h
  case cancelCommand => exact takeRequest_sound_of_calm applyCancelCommand_calm h
  case setLineMode => exact takeRequest_sound applySetLineMode_sound h
  case configureLine => exact takeRequest_sound_of_calm applyConfigureLine_calm h
  case resetLine => exact takeRequest_sound applyResetLine_sound h
  case startScan => exact takeRequest_sound applyStartScan_sound h
  case cancelScan => exact takeRequest_sound_of_calm applyCancelScan_calm h
  case startLineTest => exact takeRequest_sound applyStartLineTest_sound h
  case readLineStatus => exact takeRequest_sound_of_calm applyReadLineStatus_calm h
  case clearLineCounters =>
    exact takeRequest_sound_of_calm (fun _ u => withLine_calm fun _ => (State.Calm.refl u).countLine) h
  case setOutputs => exact takeRequest_sound_of_calm (applyMask_calm true) h
  case clearOutputs => exact takeRequest_sound_of_calm (applyMask_calm false) h
  case assignOutput => exact takeRequest_sound_of_calm applyAssignOutput_calm h
  case ctsFall => exact (link _).startHostFrame.sound h
  case ctsRise => exact (link _).sound h
  case hostTransmitStart => exact (State.Calm.refl s).startHostFrame.sound h
  case ackTimerExpiry =>
    refine .ite (fun _ => ?_) h
    exact .ite (fun _ => same fun _ => rfl) (same fun _ => rfl)
  case helloTimerExpiry => exact .ite (fun _ => same fun _ => rfl) h
  case schedulerChoice => exact .ite h.choose h
  case guardEnd =>
    split
    · exact h
    next x hx => exact h.endGuard (exchangeIn_eq_some.1 hx).1
  case addressCharacterReceived => exact h.characterEvent
  case lengthAbandon => exact h.characterEvent
  case strayCharacter => exact h.characterEvent
  case frameReceived => exact h.characterEvent
  case frameCharacterReceived => exact h.characterEvent
  case intercharacterTimeout =>
    split
    · exact h
    · exact h.abandonFrame
  case gapExpiry =>
    split
    · exact h
    next x hx => exact h.expireGap (exchangeIn_eq_some.1 hx).1 (exchangeIn_eq_some.1 hx).2
  case pollTimerExpiry => exact (State.Calm.refl s).onStation.sound h
  case holdoffTimerExpiry => exact (State.Calm.refl s).onStation.sound h
  case probeTimerExpiry => exact (State.Calm.refl s).onStation.sound h
  case stuckRaised =>
    refine .ite (fun k => h.takeStuck ?_) h
    simp only [Line.spaceRun, Bool.and_eq_true] at k
    exact k.1.1
  case stuckCleared =>
    refine .ite (fun _ => (State.Calm.refl _).raiseLineNotice.sound (h.onLine ?_)) h
    obtain ⟨w, driven⟩ := Line.sound_iff.1 (h _)
    exact Line.sound_iff.2 ⟨{ w with
      exchange := fun k => ⟨(w.exchange k).1, rfl⟩
      scan := fun k => ⟨(w.scan k).1, rfl⟩
      stuck := nofun }, driven⟩
  case testAwaitTimeout =>
    split
    · exact h
    · exact h.judgeTest
  case testGapExpiry =>
    split
    · exact h
    next x hx =>
      have := (Option.filter_eq_some_iff.1 hx).1
      exact ((State.Calm.refl s).onLine { test := by simp [this] }).sound h
  case noticeDrain => exact .ite (fun _ => (drainOne_calm s).sound h) h
  case startBitAccepted =>
    exact .ite (fun _ => ((State.Calm.refl s).onLine { assembler := fun k => .inl (by simpa using k) }).sound h) h
  case glitch => exact .ite (fun _ => (State.Calm.refl s).countLine.sound h) h
  case receiveInputLevelChange => exact (State.Calm.refl s).onLine.sound h
  case hostByteReceived => exact .ite (fun _ => same fun _ => rfl) h
  case hostStartBitAccepted => exact State.Calm.sound (.ite (fun _ => .refl s) fun _ => link _) h
  case unknownRequestCode =>
    split
    · exact h
    · exact .ite (fun _ => same fun _ => rfl) h

/-- Every step leaves the lines sound. -/
theorem step_linesSound (h : s.LinesSound) (hs : step s = .next t) : t.LinesSound := by
  unfold step at hs
  split at hs
  · unfold idle at hs
    split at hs
    · exact exec_linesSound _ h hs
    · obtain rfl := Host.Outcome.next.inj hs
      exact fun | .a => h .a | .b => h .b
  next rest _ => exact exec_linesSound _ (s := { s with pending := rest }) (fun | .a => h .a | .b => h .b) hs

end

/-- Settles O57. -/
theorem everyStepKeepsTheLinesSound : Obligations.EveryStepKeepsTheLinesSound := by
  intro s t ha hb hs
  have sound : t.LinesSound := step_linesSound (fun | .a => ha | .b => hb) hs
  exact ⟨sound .a, sound .b⟩

end Sys2Proof.Machine
end

section
/-! PROOF. Power-on (R40, R181), and the state after reset. -/

namespace Sys2Proof.Machine

theorem reset_line (l : LineId) : State.reset.line l = Line.powerOn := by cases l <;> rfl

theorem reset_station (n : Nat) : State.reset.station n = none := by
  unfold State.station
  split
  · exact Vector.getElem_replicate ..
  · rfl

/-- Settles O4. -/
theorem powerOnResetsThePart : Obligations.PowerOnResetsThePart := by
  refine ⟨fun s => ⟨powerOnState s, rfl, rfl, powerOnState_station s, fun l => by cases l <;> rfl, rfl, rfl, rfl, ?outputs, rfl,
    fun bitTime => ⟨rfl, fun l => by cases l <;> rfl⟩, rfl, ?low⟩,
    fun s rate1 rate0 h => congrArg Host.Outcome.next (if_pos h), powerOnState State.reset, rfl, rfl⟩
  case outputs => exact fun i h => Vector.getElem_replicate h
  case low =>
    intro i h
    have latch : (powerOnState s).outputs[i] = ⟨false, .latch⟩ := Vector.getElem_replicate h
    rw [latch]
    rfl

/-- Settles O60. -/
theorem resetIsSound : Obligations.ResetIsSound := by
  refine ⟨rfl, ⟨rfl, by decide, List.nodup_nil, by decide, fun n => by simp [State.reset], fun l x hx => ?_⟩, ?_,
    Line.powerOn_sound true, Line.powerOn_sound true, fun l => ?_, fun l n m e f he => ?_, ?_⟩
  · rw [reset_line] at hx
    cases hx
  · exact ⟨rfl, by decide, fun _ => rfl, nofun, nofun, nofun⟩
  · rw [reset_line]
    exact ⟨List.nodup_nil, fun n => by simp [Line.powerOn, reset_station]⟩
  · rw [reset_station] at he
    cases he
  · rw [State.countersInRange_iff]
    refine ⟨fun l => by rw [reset_line]; exact LineCounters.zero_inRange, LinkCounters.zero_inRange, fun n e he => ?_⟩
    rw [reset_station] at he
    cases he

end Sys2Proof.Machine
end

section
/-! PROOF. Characters and frames that leave (R44), the end of GUARD (R45), and the release of the driver. -/

namespace Sys2Proof.Machine

section
variable {s : State} {l : LineId} {x : Exchange}

/-! ### The levels of a frame's character -/

/-- R22: the levels of character k of a frame. -/
theorem frameCharacter_levels {frame : List Byte} {k : Nat} {byte : Byte} (h : frame[k]? = some byte) (stopBits : Nat) :
    (frameCharacter frame k).levels stopBits =
      false :: ((List.range 8).map fun i => byte.getLsbD i) ++ (k == 0) :: List.replicate stopBits true := by
  simp [frameCharacter, LineCharacter.levels, dataBits, h]

/-- R23: the transmit pin, while a character stands in the shift path. -/
theorem Line.txPin_of_some {ln : Line} {c : LineCharacter} (h : ln.pinCharacter = some c) (bitTime : Nat) :
    ln.txPin bitTime = (c.levels ln.config.stopBits).getD bitTime true := by
  simp [Line.txPin, h]

/-- R23: the internal loop, while a character stands on it. -/
theorem Line.loopLevel_of_some {ln : Line} {c : LineCharacter} (h : ln.loopCharacter = some c) (bitTime : Nat) :
    ln.loopLevel bitTime = (c.levels ln.config.stopBits).getD bitTime true := by
  simp [Line.loopLevel, h]

/-- R23: between characters the internal loop is at mark. -/
theorem Line.loopLevel_of_none {ln : Line} (h : ln.loopCharacter = none) (bitTime : Nat) :
    ln.loopLevel bitTime = true := by
  simp [Line.loopLevel, h]

/-! ### The rows of an exchange in a phase -/

theorem exchangeIn_of_phase {p : Phase} (hx : (s.line l).exchange = some x) (hp : x.phase = p) :
    exchangeIn l p s = some x := exchangeIn_eq_some.2 ⟨hx, hp⟩

theorem exec_guardEnd (hx : (s.line l).exchange = some x) (hp : x.phase = .guard) :
    exec (.guardEnd l) s = .next (endGuard l x s) := by
  show execGuardEnd l s = _
  rw [execGuardEnd, exchangeIn_of_phase hx hp]

theorem exec_characterSent (he : (s.line l).ending = none) (hx : (s.line l).exchange = some x)
    (hp : x.phase = .transmit) (hk : x.charsSent + 1 < x.frame.length) :
    exec (.characterSent l) s = .next (onExchange l (fun x => { x with charsSent := x.charsSent + 1 }) s) := by
  show execCharacterSent l s = _
  simp only [execCharacterSent, he, exchangeIn_of_phase hx hp, hk, Option.isSome_none, Bool.false_eq_true, if_false,
    if_true]

theorem exec_frameSent (he : (s.line l).ending = none) (hx : (s.line l).exchange = some x)
    (hp : x.phase = .transmit) (hk : x.charsSent + 1 = x.frame.length) :
    exec (.frameSent l) s = .next (exchangeFrameLeft l x s) := by
  show execFrameSent l s = _
  simp only [execFrameSent, he, exchangeIn_of_phase hx hp, hk, Option.isSome_none, Bool.false_eq_true, if_false,
    if_true]

/-! ### The frame that has left -/

/-- R44: what becomes of the line when the last character of an exchange's frame has left. -/
def Line.frameLeft (x : Exchange) (ln : Line) : Line :=
  { ln with
    counters := { ln.counters with framesSent := min (ln.counters.framesSent + 1) 65535 }
    exchange := some { x with phase := .guard, charsSent := x.frame.length } }

theorem frameLeft_eq (hx : (s.line l).exchange = some x) (g : CommandRecord → CommandRecord) :
    onExchange l (fun x => { x with phase := .guard, charsSent := x.frame.length })
        (onCarried x g (countLine l LineCounters.countSent s))
      = onCarried x g (s.onLine l (Line.frameLeft x)) := by
  have left : onExchange l (fun x => { x with phase := .guard, charsSent := x.frame.length })
      (countLine l LineCounters.countSent s) = s.onLine l (Line.frameLeft x) := by
    rw [onExchange_eq (x := x) _ (by simpa [countLine] using hx), countLine, State.onLine_onLine]
    rfl
  rw [← left]
  unfold onCarried
  split
  · rfl
  · cases l <;> rfl

theorem exchangeFrameLeft_eq (hx : (s.line l).exchange = some x) :
    exchangeFrameLeft l x s =
      let t := onCarried x (fun r => { r with transmitted := true }) (s.onLine l (Line.frameLeft x))
      if x.kind = .broadcast then decideOutcome l .sent (completeCarried x .sent [] t) else t := by
  rw [exchangeFrameLeft, frameLeft_eq hx]

end

/-! ### A record that is changed and then completes -/

section
variable {s : State} {tag : Half} {f : CommandRecord → CommandRecord}

/-- R93: the tags stay what they are. -/
theorem onRecord_tagsDistinct (hf : ∀ r, (f r).tag = r.tag) (hd : TagsDistinct s) :
    TagsDistinct (onRecord tag f s) := ((State.Sheds.refl s).onRecord hf).tagsDistinct hd

theorem mem_onRecord {q : CommandRecord} (hq : q ∈ s.pool.records) :
    f q ∈ (onRecord q.tag f s).pool.records := List.mem_map.2 ⟨q, hq, if_pos rfl⟩

/-- R99: what was changed of a record that has completed is in its report alone. -/
theorem recordDone_onRecord {q : CommandRecord} (o : CommandOutcome) (d : List Byte) (hf : ∀ r, (f r).tag = r.tag) :
    recordDone q o d (onRecord q.tag f s) = recordDone q o d s := by
  have records : ((s.pool.records.map fun r => if r.tag = q.tag then f r else r).filter fun r => r.tag != q.tag)
      = s.pool.records.filter fun r => r.tag != q.tag := by
    induction s.pool.records with
    | nil => rfl
    | cons r rs ih => by_cases hr : r.tag = q.tag <;> simp [hr, hf, ih]
  unfold recordDone
  rw [onRecord_pool, records]
  rfl

/-- R99: a record of no station completes. -/
theorem completeRecord_of_broadcast {q : CommandRecord} (o : CommandOutcome) (d : List Byte) (hd : TagsDistinct s)
    (hn : q.station = none) : completeRecord q o d s = recordDone q o d s := by
  rw [completeRecord_eq _ _ _ hd, resetBusyStreak, hn]

end

/-- Settles O36. -/
theorem charactersAndFramesLeave : Obligations.CharactersAndFramesLeave := by
  intro s l x he hx hp left
  have hr : (s.line l).afterRestart = none := Line.afterRestart_of_ending he
  refine ⟨fun byte bitTime hb => ?_, fun hk => ?_, fun hk hn hc => ?_, fun tag hk hn hc => ?_,
    fun tag q hk hb hc hd hq ht hs => ?_⟩
  · rw [Line.txPin_of_some (Line.pinCharacter_of_transmit hr hx hp), frameCharacter_levels hb]
  · rw [exec_characterSent he hx hp hk, onExchange_eq _ hx]
  · rw [exec_frameSent he hx hp hk, exchangeFrameLeft_eq hx, onCarried_of_none hc]
    exact congrArg Host.Outcome.next (if_neg hn)
  · rw [exec_frameSent he hx hp hk, exchangeFrameLeft_eq hx, onCarried_of_some hc]
    refine congrArg Host.Outcome.next ((if_neg (by simp [hn])).trans ?_)
    cases l <;> rfl
  · subst ht
    rw [exec_frameSent he hx hp hk, exchangeFrameLeft_eq hx, onCarried_of_some hc]
    refine congrArg Host.Outcome.next ((if_pos hb).trans ?_)
    have kept : ∀ r : CommandRecord, ({ r with transmitted := true } : CommandRecord).tag = r.tag := fun _ => rfl
    have distinct : TagsDistinct (s.onLine l (Line.frameLeft x)) := by rwa [TagsDistinct, State.onLine_pool]
    have sent := mem_onRecord (s := s.onLine l (Line.frameLeft x)) (f := fun r => { r with transmitted := true })
      (by rwa [State.onLine_pool])
    rw [completeCarried_eq .sent [] (q := { q with transmitted := true }) hc (onRecord_tagsDistinct kept distinct) sent,
      completeRecord_of_broadcast (q := { q with transmitted := true }) .sent [] (onRecord_tagsDistinct kept distinct) hs,
      recordDone_onRecord (q := { q with transmitted := true }) .sent [] kept]
    rw [decideOutcome_eq (x := { x with phase := .guard, charsSent := x.frame.length }) .sent
        (by rw [recordDone_line, State.line_onLine_same]; rfl), recordDone_onLine, State.onLine_onLine]
    rfl

/-- Settles O37. -/
theorem guardAndRestartReleaseTheDriver : Obligations.GuardAndRestartReleaseTheDriver := by
  intro s l
  refine ⟨fun x hx hp hb => ?_, fun x hx hp hb ha => ?_, fun c looped hc => ?_, fun bitTime hx hr => ?_⟩
  · rw [exec_guardEnd hx hp, endGuard, if_neg hb, State.onLine_onLine]
    exact congrArg _ (State.onLine_congr (by simp [hx]))
  · rw [exec_guardEnd hx hp, endGuard, if_pos hb, enterGap_of_seeking (x := x) (by simpa using hx) (by simpa using ha),
      State.onLine_onLine]
  · have hr : (s.line l).afterRestart = some (c, looped) := Line.afterRestart_eq_some.2 hc
    refine ⟨?_, fun bitTime => ?_⟩
    · show execDriverRelease l s = _
      rw [execDriverRelease, hc]
      rfl
    · cases looped with
      | false =>
        rw [Line.txPin_of_some (c := c) (by simp [Line.pinCharacter, hr]),
          Line.loopLevel_of_none (by simp [Line.loopCharacter, hr])]
        exact ⟨rfl, rfl⟩
      | true =>
        rw [Line.txPin_of_none (by simp [Line.pinCharacter, hr]),
          Line.loopLevel_of_some (c := c) (by simp [Line.loopCharacter, hr])]
        exact ⟨rfl, rfl⟩
  · refine Line.txPin_of_none ?_ bitTime
    rw [Line.pinCharacter, hr]
    cases hx' : (s.line l).exchange with
    | none => simp [Line.exchangeCharacter, hx']
    | some x => simp [Line.exchangeCharacter, hx', hx x hx']

end Sys2Proof.Machine
end

section
/-! PROOF. Edges, start bits and levels at a line's receiver (R26 to R30). -/

namespace Sys2Proof.Machine

section
variable {ln : Line}

/-! ### When the receiver seeks an edge -/

/-- R26: the receiver of a line that is not in TEST is enabled, and its input has returned to mark. -/
def Line.Listens (ln : Line) : Prop :=
  (ln.mode = .monitor ∨ ln.mode = .active ∧ ln.driver = false) ∧ ln.awaitsMark = false

theorem Line.Listens.mode (h : ln.Listens) : ln.mode ≠ .test := by
  rcases h.1 with h | h <;> simp [h]

theorem Line.Listens.seeksEdge (h : ln.Listens) : ln.seeksEdge = true := by
  obtain ⟨hm | ⟨hm, hd⟩, ha⟩ := h
  · simp [Line.seeksEdge, Line.receiverEnabled, hm, ha]
  · simp [Line.seeksEdge, Line.receiverEnabled, hm, hd, ha]

/-- R26, R140: in TEST the receiver listens to the loop, and waits for no mark. -/
theorem Line.seeksEdge_of_test (hm : ln.mode = .test) : ln.seeksEdge = true := by
  simp [Line.seeksEdge, Line.receiverEnabled, hm]

/-- R28: outside TEST a receiver that waits for mark seeks no edge. -/
theorem Line.seeksEdge_of_awaitsMark (ha : ln.awaitsMark = true) (hm : ln.mode ≠ .test) : ln.seeksEdge = false := by
  simp [Line.seeksEdge, ha, hm]

/-- R140: the loop has a character for the receiver exactly while one that it has not taken is being sent. -/
theorem Line.loopDelivery_isSome {t : LineTest} (hm : ln.mode = .test) (he : ln.ending = none)
    (hx : ln.exchange = none) (ht : ln.test = some t) :
    ln.loopDelivery.isSome = true ↔ t.phase = .sending ∧ t.delivered = false := by
  by_cases hp : t.phase = .sending
  · cases hd : t.delivered with
    | false => simp [Line.loopDelivery_of_sending hm (Line.afterRestart_of_ending he) hx ht hp hd, hp]
    | true => simp [Line.loopDelivery_of_delivered ht hd]
  · simp [Line.loopDelivery_of_phase ht hp, hp]

end

/-- Settles O49. -/
theorem edgesAndLevelsAreTaken : Obligations.EdgesAndLevelsAreTaken := by
  intro s l started
  refine ⟨fun hm ha => ?_, fun t hm he hx ht => ⟨?_, ?_⟩, fun mark => ?_, ?_, fun hst hm hd hr => ?_⟩
  · have listens : (s.line l).Listens := ⟨hm, ha⟩
    have comes : (s.line l).startBitComes = true := by
      simp [Line.startBitComes, listens.seeksEdge, listens.mode]
    have glitches : (s.line l).glitchComes = true := by
      simp [Line.glitchComes, listens.seeksEdge, listens.mode]
    exact ⟨congrArg Host.Outcome.next (if_pos comes), congrArg Host.Outcome.next (if_pos glitches)⟩
  · have comes : (s.line l).startBitComes = true ↔ t.phase = .sending ∧ t.delivered = false := by
      rw [← Line.loopDelivery_isSome hm he hx ht]
      simp [Line.startBitComes, Line.seeksEdge_of_test hm, hm]
    exact congrArg Host.Outcome.next (if_congr comes rfl rfl)
  · exact congrArg Host.Outcome.next (if_neg (by simp [Line.glitchComes, hm]))
  · refine congrArg Host.Outcome.next (State.onLine_congr ?_)
    have returns : (if mark = true ∧ (s.line l).mode ≠ .test then false else (s.line l).awaitsMark)
        = ((s.line l).awaitsMark && !(mark && (s.line l).mode != .test)) := by
      cases mark <;> by_cases hm : (s.line l).mode = .test <;> simp [hm]
    rw [returns]
  · have full : Config.intakeSize = 4 := rfl
    simp [State.holdPin, Link.hold, full]
  · have measured : (s.line l).measuresStuck = true := by simpa [Line.measuresStuck, hd] using hm
    refine congrArg Host.Outcome.next ((if_pos ⟨hst, measured, hr⟩).trans ?_)
    rw [raiseLineNotice_eq, State.onLine_onLine]

end Sys2Proof.Machine
end

section
/-! SUPPORT. What a received character is, and what taking it comes to, class by class (R28, R34 to R37). -/

namespace Sys2Proof.Machine

/-! ### The class of a character -/

section
variable {ln : Line}

/-- R26, R28, R37: the receiver seeks edges, and in ACTIVE its window is open. -/
structure Line.Hearing (ln : Line) : Prop where
  seeks : ln.seeksEdge = true
  window : ln.mode = .active → ln.windowOpen = true

theorem Line.windowOpen_eq {x : Exchange} (hx : ln.exchange = some x) :
    ln.windowOpen = true ↔ x.phase = .await ∨ x.phase = .receive := by simp [Line.windowOpen, hx]

theorem Line.Listens.hearing_of_window (h : ln.Listens) {x : Exchange} (hx : ln.exchange = some x)
    (hp : x.phase = .await ∨ x.phase = .receive) : ln.Hearing := ⟨h.seeksEdge, fun _ => (Line.windowOpen_eq hx).2 hp⟩

theorem Line.Listens.of_monitor (hm : ln.mode = .monitor) (ha : ln.awaitsMark = false) : ln.Listens := ⟨.inl hm, ha⟩

theorem Line.Listens.of_active (hm : ln.mode = .active) (hd : ln.driver = false) (ha : ln.awaitsMark = false) :
    ln.Listens := ⟨.inr ⟨hm, hd⟩, ha⟩

theorem Line.hearing_of_monitor (hm : ln.mode = .monitor) (ha : ln.awaitsMark = false) : ln.Hearing :=
  ⟨(Line.Listens.of_monitor hm ha).seeksEdge, by simp [hm]⟩

theorem Line.hearing_of_test (hm : ln.mode = .test) : ln.Hearing := ⟨Line.seeksEdge_of_test hm, by simp [hm]⟩

theorem Line.Hearing.not_shut (h : ln.Hearing) : ¬(ln.mode = .active ∧ (!ln.windowOpen) = true) := by
  rintro ⟨hm, hw⟩
  simp [h.window hm] at hw

/-- R34: a character with address mark 1 begins a frame. -/
theorem Line.Hearing.classify_begins (h : ln.Hearing) (byte : Byte) : ln.classify byte true = some .begins := by
  simp only [Line.classify, h.seeks, h.not_shut, Bool.not_true, Bool.false_eq_true, if_false, if_true]

/-- R37: while a frame is sought, any other is stray. -/
theorem Line.Hearing.classify_stray (h : ln.Hearing) (ha : ln.assembler = none) (byte : Byte) :
    ln.classify byte false = some .stray := by
  simp only [Line.classify, h.seeks, h.not_shut, ha, Bool.not_true, Bool.false_eq_true, if_false]

/-- R34 to R36: the class of a character after those of a partial frame. -/
def PartialFrame.classOf (p : PartialFrame) (byte : Byte) : CharacterClass :=
  if p.chars.length = 2 ∧ 32 < byte.toNat then .tooLong
  else if p.chars.length = 4 + (p.chars.getD 2 0).toNat then .completes
  else .added

theorem Line.Hearing.classify_held (h : ln.Hearing) {p : PartialFrame} (ha : ln.assembler = some p) (byte : Byte) :
    ln.classify byte false = some (p.classOf byte) := by
  have whole : p.chars.length + 1 = 5 + u8At p.chars 2 ↔ p.chars.length = 4 + (p.chars.getD 2 0).toNat := by
    unfold u8At
    omega
  have longest : Config.maxPayload = 32 := rfl
  simp only [Line.classify, h.seeks, h.not_shut, ha, whole, longest, PartialFrame.classOf, Bool.not_true,
    Bool.false_eq_true, if_false]
  rw [apply_ite some, apply_ite some]

theorem PartialFrame.classOf_tooLong {p : PartialFrame} {byte : Byte} (hl : p.chars.length = 2)
    (hb : 32 < byte.toNat) : p.classOf byte = .tooLong := if_pos ⟨hl, hb⟩

theorem PartialFrame.classOf_completes {p : PartialFrame} (hl : p.chars.length = 4 + (p.chars.getD 2 0).toNat)
    (byte : Byte) : p.classOf byte = .completes := by
  rw [PartialFrame.classOf, if_neg (by omega), if_pos hl]

/-- R35: a character short of the frame's end. -/
theorem PartialFrame.classOf_added {p : PartialFrame} {byte : Byte}
    (h : p.chars.length = 1 ∨ (p.chars.length = 2 ∧ byte.toNat ≤ 32)
      ∨ (3 ≤ p.chars.length ∧ p.chars.length + 1 < 5 + (p.chars.getD 2 0).toNat)) : p.classOf byte = .added := by
  rw [PartialFrame.classOf, if_neg (by omega), if_neg (by omega)]

/-- R37: in ACTIVE, outside the receive window, every character is stray. -/
theorem Line.Listens.classify_of_shut (h : ln.Listens) (hm : ln.mode = .active) (hw : ln.windowOpen = false)
    (byte : Byte) (mark : Bool) : ln.classify byte mark = some .stray := by
  simp [Line.classify, h.seeksEdge, hm, hw]

theorem Line.hears_of_mode (hm : ln.mode ≠ .test) (c : LineCharacter) (fe : Bool) : ln.hears c fe = true := by
  simp [Line.hears, hm]

/-- R140: in TEST the receiver hears the character on the loop. -/
theorem Line.hears_of_delivery {c : LineCharacter} (h : ln.loopDelivery = some c) : ln.hears c false = true := by
  simp [Line.hears, h]

end

/-! ### The event of a character -/

section
variable {s : State} {l : LineId} {byte : Byte} {mark fe : Bool} {k : CharacterClass}

theorem characterEvent_of_class (hh : (s.line l).hears ⟨byte, mark⟩ fe = true)
    (hk : (s.line l).classify byte mark = some k) :
    characterEvent l k byte mark fe s = takeCharacter l k byte fe s := by
  simp [characterEvent, Line.takes, hh, hk]

/-- A character that the receiver does not take as one of the class leaves the state as it is. -/
theorem characterEvent_of_other (h : (s.line l).classify byte mark ≠ some k) : characterEvent l k byte mark fe s = s := by
  simp [characterEvent, Line.takes, h]

/-! ### What taking it comes to -/

/-- R28, R39, R140: what a character of a frame does to the line that receives it. -/
def Line.received (fe : Bool) (ln : Line) : Line :=
  { ln with
    awaitsMark := fe
    counters := { ln.counters with
      framingErrors := if fe then min (ln.counters.framingErrors + 1) 65535 else ln.counters.framingErrors }
    test := ln.testHeard }

theorem receiveCharacter_eq (l : LineId) (fe : Bool) (s : State) :
    receiveCharacter l fe s = s.onLine l (Line.received fe) := by
  unfold receiveCharacter
  congr 1
  funext ln
  cases fe <;> rfl

/-- R37: what a stray character does to the line that receives it. -/
def Line.strayed (fe : Bool) (ln : Line) : Line :=
  { ln with
    awaitsMark := fe
    counters := { ln.counters with strayCharacters := min (ln.counters.strayCharacters + 1) 65535 }
    test := ln.testHeard }

theorem takeCharacter_stray (l : LineId) (byte : Byte) (fe : Bool) (s : State) :
    takeCharacter l .stray byte fe s = s.onLine l (Line.strayed fe) := rfl

/-- R35: the line holds a partial frame, with the inter-character timer started. -/
def Line.holding (chars : List Byte) (framing : Bool) (ln : Line) : Line :=
  { ln with assembler := some ⟨chars, framing, some ln.config.intercharacter⟩ }

/-- R46: an address character in AWAIT begins RECEIVE. -/
def Exchange.replied (x : Exchange) : Exchange :=
  if x.phase = .await then { x with phase := .receive, timer := none } else x

theorem takeCharacter_begins (ha : (s.line l).assembler = none) :
    takeCharacter l .begins byte fe s =
      s.onLine l fun ln =>
        { (ln.received fe).holding [byte] fe with exchange := ln.exchange.map Exchange.replied } := by
  have ha' : ((s.onLine l (Line.received fe)).line l).assembler = none := by simpa [Line.received] using ha
  simp only [takeCharacter, receiveCharacter_eq, beginFrame, ha', beginReply, onExchange, holdPartial,
    State.onLine_onLine]
  rfl

theorem takeCharacter_added {p : PartialFrame} (ha : (s.line l).assembler = some p) :
    takeCharacter l .added byte fe s =
      s.onLine l fun ln => (ln.received fe).holding (p.chars ++ [byte]) (p.framing || fe) := by
  simp only [takeCharacter, extendedFrame, ha, receiveCharacter_eq, holdPartial, State.onLine_onLine]
  rfl

/-- R34: what an abandoned frame does to a line: the assembler seeks, or holds the frame that begins. -/
def Line.abandoning (held : Option PartialFrame) (ln : Line) : Line :=
  { ln with assembler := held, counters := abandonedIf true ln.counters }

theorem abandonFrame_eq (l : LineId) (chars : List Byte) (framing : Bool) (cause : AbandonCause) (s : State) :
    abandonFrame l chars framing cause s = handUp l ⟨chars, framing, some cause⟩ (s.onLine l (Line.abandoning none)) :=
  rfl

theorem takeCharacter_tooLong {p : PartialFrame} (ha : (s.line l).assembler = some p) :
    takeCharacter l .tooLong byte fe s =
      handUp l ⟨p.chars ++ [byte], p.framing || fe, some .length⟩
        (s.onLine l fun ln => (ln.received fe).abandoning none) := by
  simp only [takeCharacter, extendedFrame, ha, receiveCharacter_eq, abandonFrame_eq, State.onLine_onLine]

theorem takeCharacter_newAddress {p : PartialFrame} (ha : (s.line l).assembler = some p) :
    takeCharacter l .begins byte fe s =
      handUp l ⟨p.chars, p.framing, some .newAddress⟩
        (s.onLine l fun ln =>
          (ln.received fe).abandoning (some ⟨[byte], fe, some ln.config.intercharacter⟩)) := by
  have ha' : ((s.onLine l (Line.received fe)).line l).assembler = some p := by simpa [Line.received] using ha
  simp only [takeCharacter, receiveCharacter_eq, beginFrame, ha', countLine, holdPartial, State.onLine_onLine]
  rfl

/-- R36: what a complete frame does to a line. -/
def Line.frameEnded (h : HandedUp) (ln : Line) : Line :=
  { ln with
    assembler := none
    counters := { ln.counters with
      goodFrames :=
        if h.crcMatches ∧ h.framing = false then min (ln.counters.goodFrames + 1) 65535 else ln.counters.goodFrames
      checkErrors := if h.crcMatches then ln.counters.checkErrors else min (ln.counters.checkErrors + 1) 65535 } }

theorem countFrame_eq (c : LineCounters) (framing crc : Bool) :
    c.countFrame framing crc =
      { c with
        goodFrames := if crc ∧ framing = false then min (c.goodFrames + 1) 65535 else c.goodFrames
        checkErrors := if crc then c.checkErrors else min (c.checkErrors + 1) 65535 } := by
  cases crc <;> cases framing <;> rfl

theorem takeCharacter_completes {p : PartialFrame} (ha : (s.line l).assembler = some p) :
    takeCharacter l .completes byte fe s =
      handUp l ⟨p.chars ++ [byte], p.framing || fe, none⟩
        (s.onLine l fun ln => (ln.received fe).frameEnded ⟨p.chars ++ [byte], p.framing || fe, none⟩) := by
  simp only [takeCharacter, extendedFrame, ha, receiveCharacter_eq, completeFrame, countFrame_eq, State.onLine_onLine]
  rfl

end

end Sys2Proof.Machine
end

section
/-! PROOF. Characters begin a frame, join it or are stray (R28, R34, R35, R37). -/

namespace Sys2Proof.Machine

section
variable {s : State} {l : LineId} {byte : Byte} {fe : Bool}

/-- R140: the character of the line test in the shift path, by the bytes of the frame sent. -/
theorem Line.loopDelivery_of_byte {ln : Line} {t : LineTest} (hm : ln.mode = .test) (he : ln.ending = none)
    (hx : ln.exchange = none) (ht : ln.test = some t) (hp : t.phase = .sending) (hd : t.delivered = false)
    (hb : (lineFrame 0 (if t.index % 2 = 1 then 0x14#8 else 0x04#8)
      ((List.range 32).map fun p => b8 (7 * t.index + p)))[t.charsSent]? = some byte) :
    ln.loopDelivery = some ⟨byte, t.charsSent == 0⟩ := by
  rw [← testFrame_eq] at hb
  rw [Line.loopDelivery_of_sending hm (Line.afterRestart_of_ending he) hx ht hp hd]
  simp [frameCharacter, hb]

/-- R40, R34 to R37: a command for a character that no receiver hears leaves the state as it is. -/
theorem characterEvent_of_deaf {mark : Bool} {k : CharacterClass} (h : (s.line l).seeksEdge = false) :
    characterEvent l k byte mark fe s = s :=
  characterEvent_of_other (by simp [Line.classify_of_not_seeking h])

end

/-- Settles O48. -/
theorem charactersAreAssembled : Obligations.CharactersAreAssembled := by
  intro s l byte fe counted delivered stray hears looped
  have loop (mark : Bool) (h : looped mark) : (s.line l).hears ⟨byte, mark⟩ fe = true ∧ (s.line l).Hearing := by
    obtain ⟨hm, hfe, he, hx, t, ht, hp, hd, hmark, hb⟩ := h
    subst hmark hfe
    exact ⟨Line.hears_of_delivery (Line.loopDelivery_of_byte hm he hx ht hp hd hb), Line.hearing_of_test hm⟩
  have heard (mark : Bool) (h : (s.line l).mode = .monitor ∧ hears ∨ looped mark) :
      (s.line l).hears ⟨byte, mark⟩ fe = true ∧ (s.line l).Hearing := by
    rcases h with ⟨hm, ha⟩ | h
    · exact ⟨Line.hears_of_mode (by simp [hm]) .., Line.hearing_of_monitor hm ha⟩
    · exact loop mark h
  refine ⟨fun h ha hx => ?_, fun x hm hd hh ha hx hp => ?_, fun p ha h hl => ?_, fun mark hm hd hh hx => ?_,
    fun x hm hd hh hx hp ha => ?_, fun h ha => ?_, ?_⟩
  · obtain ⟨hears, hearing⟩ := heard true h
    refine congrArg Host.Outcome.next ((characterEvent_of_class hears (hearing.classify_begins byte)).trans ?_)
    rw [takeCharacter_begins ha]
    refine State.onLine_congr ?_
    simp only [Line.received, Line.holding, hx]
    rfl
  · have listens : (s.line l).Listens := .of_active hm hd hh
    have hearing := listens.hearing_of_window hx (.inl hp)
    refine congrArg Host.Outcome.next ((characterEvent_of_class (Line.hears_of_mode listens.mode ..)
      (hearing.classify_begins byte)).trans ?_)
    rw [takeCharacter_begins ha]
    exact State.onLine_congr (by
      simp [Line.received, Line.holding, hx, Line.testHeard_of_mode listens.mode, Exchange.replied, hp, counted])
  · have hearing : (s.line l).hears ⟨byte, false⟩ fe = true ∧ (s.line l).Hearing := by
      rcases h with h | h | ⟨hm, hd, hh, x, hx, hp⟩
      · exact heard false (.inl h)
      · exact heard false (.inr h)
      · have listens : (s.line l).Listens := .of_active hm hd hh
        exact ⟨Line.hears_of_mode listens.mode .., listens.hearing_of_window hx (.inr hp)⟩
    have added := (hearing.2.classify_held ha byte).trans (congrArg some (PartialFrame.classOf_added hl))
    exact congrArg Host.Outcome.next ((characterEvent_of_class hearing.1 added).trans (takeCharacter_added ha))
  · have listens : (s.line l).Listens := .of_active hm hd hh
    have shut : (s.line l).windowOpen = false := by
      cases hx' : (s.line l).exchange with
      | none => simp [Line.windowOpen, hx']
      | some x => simp [Line.windowOpen, hx', hx x hx']
    exact congrArg Host.Outcome.next ((characterEvent_of_class (Line.hears_of_mode listens.mode ..)
      (listens.classify_of_shut hm shut byte mark)))
  · have listens : (s.line l).Listens := .of_active hm hd hh
    have hearing := listens.hearing_of_window hx hp
    exact congrArg Host.Outcome.next (characterEvent_of_class (Line.hears_of_mode listens.mode ..)
      (hearing.classify_stray ha byte))
  · obtain ⟨hears, hearing⟩ := heard false h
    exact congrArg Host.Outcome.next (characterEvent_of_class hears (hearing.classify_stray ha byte))
  · intro c hc hh hm
    have deaf := Line.seeksEdge_of_awaitsMark hh hm
    have ignored (k : CharacterClass) (mark : Bool) := congrArg (Host.Outcome.next (φ := Fault) (ρ := Refusal))
      (characterEvent_of_deaf (s := s) (byte := byte) (fe := fe) (mark := mark) (k := k) deaf)
    simp only [List.mem_cons, List.not_mem_nil, or_false] at hc
    rcases hc with rfl | rfl | rfl | rfl | rfl | rfl <;> exact ignored _ _

end Sys2Proof.Machine
end

section
/-! PROOF. STUCK (R29, R66, R130), and capture in MONITOR (R132). -/

namespace Sys2Proof.Machine

section
variable {s : State} {l : LineId}

theorem handUp_of_monitor (hm : (s.line l).mode = .monitor) (h : HandedUp) : handUp l h s = captureFrame l h s := by
  simp [handUp, hm]

theorem raiseStuck_eq (l : LineId) (s : State) :
    raiseStuck l s =
      s.onLine l fun ln =>
        lineNoticed
          { ln with
            stuck := true
            counters := { ln.counters with stuckEvents := min (ln.counters.stuckEvents + 1) 65535 } }
          .stuck := by
  rw [raiseStuck, raiseLineNotice_eq, State.onLine_onLine]
  rfl

theorem raiseStuck_line (l : LineId) (s : State) :
    (raiseStuck l s).line l =
      lineNoticed
        { s.line l with
          stuck := true
          counters := { (s.line l).counters with
            stuckEvents := min ((s.line l).counters.stuckEvents + 1) 65535 } }
        .stuck := by rw [raiseStuck_eq, State.line_onLine_same]

theorem exec_stuckRaised (hst : (s.line l).stuck = false) (hr : (s.line l).rxMark = false)
    (hd : (s.line l).driver = false) (hm : (s.line l).mode = .active ∨ (s.line l).mode = .monitor) :
    exec (.stuckRaised l) s = .next (takeStuck l s) := by
  have run : (s.line l).spaceRun = true := by simpa [Line.spaceRun, Line.measuresStuck, hr, hd] using hm
  exact congrArg Host.Outcome.next (if_pos (by simp [run, hst]))

theorem takeStuck_of_active (hm : (s.line l).mode = .active) :
    takeStuck l s = endScan l .lineFault (cutOff l (raiseStuck l s)) := by
  have active : ((raiseStuck l s).line l).mode = .active := by rwa [raiseStuck_line]
  exact if_neg (by simp [active])

theorem takeStuck_of_monitor (hm : (s.line l).mode = .monitor) :
    takeStuck l s = stuckInMonitor l (raiseStuck l s) := by
  have monitor : ((raiseStuck l s).line l).mode = .monitor := by rwa [raiseStuck_line]
  exact if_pos monitor

/-! ### A frame handed up in MONITOR -/

variable {p : PartialFrame} {byte : Byte} {fe : Bool}

theorem exec_intercharacterTimeout (ha : (s.line l).assembler = some p) (ht : p.timer.isSome) :
    exec (.intercharacterTimeout l) s = .next (abandonFrame l p.chars p.framing .intercharacter s) := by
  show execIntercharacterTimeout l s = _
  simp [execIntercharacterTimeout, timedFrame, ha, Option.filter, ht]

end

/-- Settles O50. -/
theorem stuckEndsTheLinesWork : Obligations.StuckEndsTheLinesWork := by
  intro s l raised captured heard
  have capture (h : HandedUp) (t : State) : captureFrame l h t = captured h t := by
    by_cases hs : t.queue.entries.length + t.queue.reservations < 128
    · rw [captureFrame_of_space hs]
      refine Eq.trans ?_ (if_pos hs).symm
      simp only [captureReport, decide_eq_true_eq]
    · rw [captureFrame_of_full (Nat.not_lt.1 hs)]
      exact (if_neg hs).symm
  have stuck : raiseStuck l s = raised := raiseStuck_eq l s
  refine ⟨fun hst hr hd => ⟨fun hm => ?_, fun hm ha => ?_, fun p hm ha => ?_⟩, fun p byte fe hm ha => ⟨fun ht => ?_,
    fun hh => ?_⟩⟩
  · rw [exec_stuckRaised hst hr hd (.inl hm), takeStuck_of_active hm, endScan_eq, stuck]
  · have seeks : ((raiseStuck l s).line l).assembler = none := by rwa [raiseStuck_line]
    rw [exec_stuckRaised hst hr hd (.inr hm), takeStuck_of_monitor hm, stuckInMonitor, seeks, stuck]
  · have holds : ((raiseStuck l s).line l).assembler = some p := by rwa [raiseStuck_line]
    rw [exec_stuckRaised hst hr hd (.inr hm), takeStuck_of_monitor hm, stuckInMonitor, holds]
    simp only [abandonFrame_eq]
    rw [handUp_of_monitor (by simpa [Line.abandoning, raiseStuck_line, lineNoticed] using hm), capture, stuck]
    refine congrArg (fun t => Host.Outcome.next (captured _ t)) (State.onLine_congr ?_)
    simp only [raised, State.line_onLine_same]
    rfl
  · rw [exec_intercharacterTimeout ha ht, abandonFrame_eq, handUp_of_monitor (by simpa [Line.abandoning] using hm),
      capture]
    exact congrArg (fun t => Host.Outcome.next (captured _ t)) (State.onLine_congr rfl)
  · have hearing := Line.hearing_of_monitor hm hh
    have hears (mark : Bool) : (s.line l).hears ⟨byte, mark⟩ fe = true := Line.hears_of_mode (by simp [hm]) ..
    have test : (s.line l).testHeard = (s.line l).test := Line.testHeard_of_mode (by simp [hm])
    have up (h : HandedUp) (f g : Line → Line) (hf : (f (s.line l)).mode = .monitor) (hg : f (s.line l) = g (s.line l)) :
        handUp l h (s.onLine l f) = captured h (s.onLine l g) := by
      rw [handUp_of_monitor (by simpa using hf), capture, State.onLine_congr hg]
    refine ⟨fun hl hb => ?_, fun hx => ?_, fun hl => ?_⟩
    · have long := (hearing.classify_held ha byte).trans (congrArg some (PartialFrame.classOf_tooLong hl hb))
      refine congrArg Host.Outcome.next ((characterEvent_of_class (hears false) long).trans ?_)
      rw [takeCharacter_tooLong ha]
      refine up _ _ _ hm ?_
      simp only [Line.received, test]
      rfl
    · refine congrArg Host.Outcome.next ((characterEvent_of_class (hears true) (hearing.classify_begins byte)).trans ?_)
      rw [takeCharacter_newAddress ha]
      refine up _ _ _ hm ?_
      simp only [Line.received, test]
      rfl
    · intro h
      have whole := (hearing.classify_held ha byte).trans (congrArg some (PartialFrame.classOf_completes hl byte))
      refine congrArg Host.Outcome.next ((characterEvent_of_class (hears false) whole).trans ?_)
      rw [takeCharacter_completes ha]
      refine up _ _ _ hm ?_
      simp only [Line.received, test]
      rfl

end Sys2Proof.Machine
end

section
/-! PROOF. A line frame read back, and the six checks of a reply (R31 to R33, R49, R50). -/

namespace Sys2Proof.Machine

/-! ### A line frame read back -/

section
variable {address : Nat} {control : Byte} {payload : List Byte} {framing : Bool} {abandoned : Option AbandonCause}

theorem lineFrame_length (address : Nat) (control : Byte) (payload : List Byte) :
    (lineFrame address control payload).length = payload.length + 5 := by simp [lineFrame]

/-- R31: the frame whose characters are those of a line frame. -/
def handedFrame (address : Nat) (control : Byte) (payload : List Byte) : HandedUp :=
  ⟨lineFrame address control payload, false, none⟩

theorem handedFrame_address : (handedFrame address control payload).address = b8 address := rfl
theorem handedFrame_kindCode : (handedFrame address control payload).kindCode = control.toNat % 16 := rfl
theorem handedFrame_toggle : (handedFrame address control payload).toggle = control.getLsbD 4 := rfl

theorem handedFrame_length (h : payload.length ≤ 32) : (handedFrame address control payload).length = payload.length := by
  simp [handedFrame, HandedUp.length, u8At, lineFrame, b8]
  omega

theorem handedFrame_payload (h : payload.length ≤ 32) : (handedFrame address control payload).payload = payload := by
  rw [HandedUp.payload, handedFrame_length h]
  refine (if_pos h).trans ?_
  simp [handedFrame, lineFrame]

/-- R32, R36: the CRC of a frame that was built is the one computed. -/
theorem handedFrame_crcMatches (h : payload.length ≤ 32) : (handedFrame address control payload).crcMatches = true := by
  rw [HandedUp.crcMatches, handedFrame_length h]
  simp [handedFrame, lineFrame, Nat.add_comm 3]

theorem b8_toNat_of_lt {n : Nat} (h : n < 256) : (b8 n).toNat = n := by
  simpa [b8] using h

/-- R49: what the first four checks leave of a frame that was built: its kind is the next to be looked at. -/
theorem judge_handedFrame {kind : ExchangeKind} {target : Nat} {sent : Bool} (ha : address < 256)
    (hp : payload.length ≤ 32) :
    judge kind target sent (handedFrame address control payload) =
      if address ≠ target then .fails .wrongResponder
      else
        match replyKind (control.toNat % 16) payload.length with
        | none => .fails .badKind
        | some k =>
          if !replyAllowed kind k then .fails .badKind
          else if control.getLsbD 4 ≠ sent ∧ k ≠ .checkFail ∧ kind ≠ .rollCall then .fails .toggle
          else .passes k := by
  have flagged : (handedFrame address control payload).framing = false := rfl
  have whole : (handedFrame address control payload).abandoned = none := rfl
  rw [judge, flagged, whole, handedFrame_crcMatches hp, handedFrame_address, b8_toNat_of_lt ha, handedFrame_kindCode,
    handedFrame_length hp, handedFrame_toggle]
  rfl

end

/-! ### The six checks -/

/-- R188: the kind and the toggle in a CONTROL byte. -/
theorem controlByte_read {code : Nat} (h : code < 16) (toggle resync : Bool) :
    (controlByte code toggle resync).toNat % 16 = code ∧ (controlByte code toggle resync).getLsbD 4 = toggle := by
  have : ∀ c < 16, (controlByte c toggle resync).toNat % 16 = c ∧ (controlByte c toggle resync).getLsbD 4 = toggle := by
    cases toggle <;> cases resync <;> decide
  exact this code h

/-- R33, R50, R188: of a reply kind, its code, the exchanges that allow it, and the bounds of its payload. -/
def ReplyKind.row : ReplyKind → Nat × List ExchangeKind × Nat × Nat
  | .data => (0x8, [.poll, .probe], 1, 32)
  | .empty => (0x9, [.poll, .probe], 0, 0)
  | .done => (0xA, [.command], 0, 32)
  | .reject => (0xB, [.command], 0, 32)
  | .busy => (0xC, [.poll, .probe, .command], 0, 0)
  | .checkFail => (0xD, [.poll, .probe, .command], 0, 0)
  | .present => (0xE, [.rollCall], 0, 0)

/-- R33: the kind of a reply is the one whose code it has and within whose bounds its payload is. -/
theorem replyKind_eq_some {code length : Nat} {k : ReplyKind} :
    replyKind code length = some k ↔ code = k.row.1 ∧ k.row.2.2.1 ≤ length ∧ length ≤ k.row.2.2.2 := by
  unfold replyKind
  constructor
  · intro h
    split at h <;> simp at h
    all_goals
      obtain ⟨bounds, rfl⟩ := h
      exact ⟨rfl, by simp only [ReplyKind.row]; omega⟩
  · rintro ⟨rfl, low, high⟩
    cases k <;> simp_all [ReplyKind.row]

/-- R50: the exchanges that allow a reply. -/
theorem replyAllowed_iff {kind : ExchangeKind} {k : ReplyKind} : replyAllowed kind k = true ↔ kind ∈ k.row.2.1 := by
  cases kind <;> cases k <;> decide

/-- The rows of all seven kinds. -/
def replyRows : List (Nat × ReplyKind × List ExchangeKind × Nat × Nat) :=
  [ReplyKind.data, .empty, .done, .reject, .busy, .checkFail, .present].map fun k => (k.row.1, k, k.row.2)

theorem mem_replyRows {code : Nat} {k : ReplyKind} {rest : List ExchangeKind × Nat × Nat} :
    (code, k, rest) ∈ replyRows ↔ code = k.row.1 ∧ rest = k.row.2 := by
  simp only [replyRows, List.mem_map]
  constructor
  · rintro ⟨j, -, h⟩
    simp only [Prod.mk.injEq] at h
    obtain ⟨rfl, rfl, rfl⟩ := h
    exact ⟨rfl, rfl⟩
  · rintro ⟨rfl, rfl⟩
    exact ⟨k, by cases k <;> simp, rfl⟩

/-- R50: a reply is of kind k, which the exchange allows, exactly when a row says so. -/
theorem replyKind_iff {code length : Nat} {kind : ExchangeKind} {k : ReplyKind} :
    replyKind code length = some k ∧ replyAllowed kind k = true
      ↔ ∃ kinds low high, (code, k, kinds, low, high) ∈ replyRows ∧ kind ∈ kinds ∧ low ≤ length ∧ length ≤ high := by
  rw [replyKind_eq_some, replyAllowed_iff]
  constructor
  · rintro ⟨⟨hc, hl, hh⟩, hk⟩
    exact ⟨_, _, _, mem_replyRows.2 ⟨hc, rfl⟩, hk, hl, hh⟩
  · rintro ⟨kinds, low, high, hm, hk, hl, hh⟩
    obtain ⟨hc, hr⟩ := mem_replyRows.1 hm
    rw [← hr]
    exact ⟨⟨hc, hl, hh⟩, hk⟩

/-- Settles O39. -/
theorem repliesAreJudgedInOrder : Obligations.RepliesAreJudgedInOrder := by
  intro kind target sent
  refine ⟨fun h hf => ?_, fun h hf ha => ?_, fun h covered crc hf ha hc hl hne => ?_,
    fun address code toggle resync payload ha hcode hp => ?_⟩
  · simp [judge, hf]
  · simp [judge, hf, ha]
  · have differs : h.crcMatches = false := by
      have length : 3 + h.length = covered.length := by
        rw [hl, HandedUp.length, u8At, hc, List.getD_append _ _ _ _ (by omega)]
      simpa [HandedUp.crcMatches, length, hc] using hne
    simp [judge, hf, ha, differs]
  · intro good known allowed
    obtain ⟨hk, ht⟩ := controlByte_read hcode toggle resync
    have judged := judge_handedFrame (control := controlByte code toggle resync) (kind := kind) (target := target)
      (sent := sent) ha hp
    rw [hk, ht] at judged
    have rows (k : ReplyKind) : allowed k ↔ replyKind code payload.length = some k ∧ replyAllowed kind k = true :=
      replyKind_iff.symm
    refine ⟨fun hne => judged.trans (if_pos hne), fun he none => ?_, fun k he hall hne hcf hrc => ?_,
      fun k he hall hok => ?_⟩
    · rw [if_neg (not_not.2 he)] at judged
      refine judged.trans ?_
      cases hr : replyKind code payload.length with
      | none => rfl
      | some k =>
        have : replyAllowed kind k = false := by
          by_contra hall
          exact none k ((rows k).2 ⟨hr, by simpa using hall⟩)
        simp [this]
    · obtain ⟨hr, hall⟩ := (rows k).1 hall
      rw [if_neg (not_not.2 he), hr] at judged
      refine judged.trans ?_
      simp [hall, hne, hcf, hrc]
    · obtain ⟨hr, hall⟩ := (rows k).1 hall
      rw [if_neg (not_not.2 he), hr] at judged
      refine judged.trans ?_
      simp only [hall, Bool.not_true, Bool.false_eq_true, if_false]
      exact if_neg (by tauto)

end Sys2Proof.Machine
end

section
/-! PROOF. The host frame assembler (R162, R164). -/

namespace Sys2Proof.Machine

section
variable {s : State} {p : HostPartial} {byte : Byte} {fe : Bool}

/-- R162: outside power-on reset, a host receiver whose input has returned to mark seeks edges. -/
theorem hostByteIs_of_seeking (hr : s.inReset = false) (hw : s.link.awaitsMark = false) {c : HostByteClass} :
    hostByteIs c byte fe s = true ↔ s.link.classify byte fe = c := by
  simp [hostByteIs, State.hostSeeksEdge, hr, hw]

/-- R164: in SEEKING only SYNC without a framing error starts a frame. -/
theorem Link.classify_seeking_discarded {k : Link} (ha : k.assembler = none) (h : byte ≠ 0xA5#8 ∨ fe = true) :
    k.classify byte fe = .discarded := by
  simp only [Link.classify, ha]
  exact if_neg (by rcases h with h | h <;> simp [h])

theorem Link.classify_sync {k : Link} (ha : k.assembler = none) : k.classify 0xA5#8 false = .added := by
  simp [Link.classify, ha]

/-- R164: short of the frame's end a byte is added, but for a LENGTH out of its range. -/
theorem Link.classify_added {k : Link} (ha : k.assembler = some p)
    (hl : p.bytes = [] → 2 ≤ byte.toNat ∧ byte.toNat ≤ 66)
    (hc : hostFrameComplete (p.bytes ++ [byte]) = false) : k.classify byte false = .added := by
  have length : ¬(p.bytes = [] ∧ (byte.toNat < 2 ∨ 66 < byte.toNat)) := by
    rintro ⟨hn, h⟩
    have := hl hn
    omega
  simp only [Link.classify, ha, if_neg length, hc]
  rfl

/-- R164: LENGTH alone is no whole frame. -/
theorem hostFrameComplete_length (byte : Byte) : hostFrameComplete [byte] = false := by
  simp [hostFrameComplete]

theorem hostFrameComplete_of_short {length : Byte} {rest : List Byte} (h : rest.length + 1 < length.toNat + 2) :
    hostFrameComplete (length :: rest ++ [byte]) = false := by
  simp [hostFrameComplete, u8At]
  omega

end

/-- Settles O5. -/
theorem hostBytesAreCollected : Obligations.HostBytesAreCollected := by
  have gap : Config.hostGap = 10 := rfl
  refine ⟨fun s hr hw ha => ?_, fun s byte fe hr hw ha h => ?_, fun s p byte hr hw ha h => ?_, fun s hr => ?_,
    fun s byte fe h c hc => ?_, fun s hr => ?_⟩
  · have sync := (hostByteIs_of_seeking hr hw).2 (Link.classify_sync ha)
    refine congrArg Host.Outcome.next ((if_pos sync).trans ?_)
    simp only [addHostByte, State.onLink, ha, gap]
  · have discarded := (hostByteIs_of_seeking hr hw).2 (Link.classify_seeking_discarded ha h)
    exact congrArg Host.Outcome.next (if_pos discarded)
  · have added : s.link.classify byte false = .added := by
      rcases h with ⟨hn, low, high⟩ | ⟨length, rest, hb, hl⟩
      · exact Link.classify_added ha (fun _ => ⟨low, high⟩) (by rw [hn]; exact hostFrameComplete_length byte)
      · exact Link.classify_added ha (by simp [hb]) (by rw [hb]; exact hostFrameComplete_of_short hl)
    refine congrArg Host.Outcome.next ((if_pos ((hostByteIs_of_seeking hr hw).2 added)).trans ?_)
    simp only [addHostByte, State.onLink, ha, gap]
  · exact congrArg Host.Outcome.next (if_neg (by simp [hr]))
  · have deaf : s.hostSeeksEdge = false := by rcases h with h | h <;> simp [State.hostSeeksEdge, h]
    have ignored (k : HostByteClass) (fe : Bool) (t : State) :
        (Host.Outcome.next (if hostByteIs k byte fe s then t else s) : Host.Outcome State Fault Refusal) = .next s :=
      congrArg Host.Outcome.next (if_neg (by simp [hostByteIs_of_not_seeking deaf]))
    simp only [List.mem_cons, List.not_mem_nil, or_false] at hc
    rcases hc with rfl | rfl | rfl | rfl | rfl <;> exact ignored ..
  · exact congrArg Host.Outcome.next (if_pos hr)

end Sys2Proof.Machine
end

section
/-! PROOF. SET_LINE_MODE (R126). -/

namespace Sys2Proof.Machine

section
variable {s : State} {l : LineId} {m : LineMode}

/-! ### The line's work ends (R126, steps 1 and 2) -/

theorem endLineWork_of_active (hm : (s.line l).mode = .active) :
    endLineWork l s =
      (scanEnded l .modeChange (cutOff l s)).onLine l fun ln => { ln with commandCount := 0, scanCount := 0 } := by
  simp only [endLineWork, hm, endScan_eq]

theorem endLineWork_of_test {t : LineTest} (hm : (s.line l).mode = .test) (ht : (s.line l).test = some t) :
    endLineWork l s = testEnded l t .aborted s := by
  simp only [endLineWork, hm, endTest_eq _ ht]

/-- R126: in OFF and MONITOR there is no work. -/
theorem endLineWork_of_quiet (hm : (s.line l).mode = .off ∨ (s.line l).mode = .monitor) : endLineWork l s = s := by
  rcases hm with hm | hm <;> simp only [endLineWork, hm]

theorem scanEnded_mode (status : ScanStatus) : ((scanEnded l status s).line l).mode = (s.line l).mode := by
  rw [← endScan_eq, ((State.Calm.refl s).endScan l).mode]

theorem testEnded_mode (t : LineTest) (status : TestStatus) : ((testEnded l t status s).line l).mode = .off := by
  cases l <;> rfl

/-! ### The change of mode, by the mode it is from -/

theorem changeMode_of_active (hm : (s.line l).mode = .active) (hne : m ≠ .active) (ht : m ≠ .test) :
    changeMode l m s =
      modeTaken l m
        ((scanEnded l .modeChange (cutOff l s)).onLine l fun ln => { ln with commandCount := 0, scanCount := 0 }) := by
  have stays : ((endLineWork l s).line l).mode = .active := by
    rw [endLineWork_of_active hm, State.line_onLine_same, scanEnded_mode, cutOff_mode, hm]
  rw [changeMode_eq ht (by rw [stays]; exact hne.symm), endLineWork_of_active hm]

theorem changeMode_of_test {t : LineTest} (hm : (s.line l).mode = .test) (ht : (s.line l).test = some t)
    (hne : m ≠ .test) :
    changeMode l m s =
      if m = .off then testEnded l t .aborted s else modeTaken l m (testEnded l t .aborted s) := by
  have off : ((endLineWork l s).line l).mode = .off := by rw [endLineWork_of_test hm ht, testEnded_mode]
  by_cases h : m = .off
  · rw [changeMode_same (off.trans h.symm), endLineWork_of_test hm ht, if_pos h]
  · rw [changeMode_eq hne (by rw [off]; exact Ne.symm h), endLineWork_of_test hm ht, if_neg h]

theorem changeMode_of_quiet (hm : (s.line l).mode = .off ∨ (s.line l).mode = .monitor) (hne : (s.line l).mode ≠ m)
    (ht : m ≠ .test) : changeMode l m s = modeTaken l m s := by
  rw [changeMode_eq ht (by rwa [endLineWork_of_quiet hm]), endLineWork_of_quiet hm]

/-! ### What the request comes to -/

variable {r : Request} {rest : List Request} {line mode : Byte}

theorem settableMode_of_lt {n : Nat} (h : 2 < n) : settableMode n = none := by
  unfold settableMode
  split
  iterate 3 omega
  rfl

/-- R182: the line and the mode that the request names. -/
theorem applySetLineMode_eq (hb : r.body = [0x40#8, line, mode]) (hl : l = .a ∧ line = 0 ∨ l = .b ∧ line = 1)
    (hm : m = .off ∧ mode = 0 ∨ m = .active ∧ mode = 1 ∨ m = .monitor ∧ mode = 2) (t : State) :
    applySetLineMode r.body t =
      if (t.line l).mode = m then answer .ok t else afterShift l (.modeChange m) (changeMode l m) t := by
  have hline : u8At r.body 1 = line.toNat := by rw [hb]; rfl
  have hmode : u8At r.body 2 = mode.toNat := by rw [hb]; rfl
  rw [applySetLineMode, withLine, hline, hmode]
  rcases hl with ⟨rfl, rfl⟩ | ⟨rfl, rfl⟩ <;> rcases hm with ⟨rfl, rfl⟩ | ⟨rfl, rfl⟩ | ⟨rfl, rfl⟩ <;> rfl

theorem applySetLineMode_refused (hb : r.body = [0x40#8, line, mode]) (h : 1 < line.toNat ∨ 2 < mode.toNat)
    (t : State) : applySetLineMode r.body t = refuse .badParameter t := by
  have hline : u8At r.body 1 = line.toNat := by rw [hb]; rfl
  have hmode : u8At r.body 2 = mode.toNat := by rw [hb]; rfl
  rw [applySetLineMode, withLine, hline, hmode]
  cases hl : lineOf line.toNat with
  | none => rfl
  | some l =>
    have low : ¬1 < line.toNat := fun h => by simp [lineOf_of_lt h] at hl
    rw [settableMode_of_lt (h.resolve_left low)]

end

/-- Settles O25. -/
theorem setLineModeChangesTheMode : Obligations.SetLineModeChangesTheMode := by
  intro s r rest line mode h hb
  have hc : requestCode r.body = some 0x40 := by rw [hb]; rfl
  have hl : lengthFits r.body = true := by rw [hb]; rfl
  have answers {st : Status} {t : State} (ha : applySetLineMode r.body (headTaken rest s) = ⟨t, some ⟨st, []⟩⟩) :
      exec .setLineMode s = .next (answered r st [] t) :=
    congrArg Host.Outcome.next (takeRequest_of_apply h hc hl (by decide) ha)
  refine ⟨fun bad => answers (applySetLineMode_refused hb bad _), fun l m hlb hmb => ?_⟩
  have ht : m ≠ .test := by rcases hmb with ⟨rfl, -⟩ | ⟨rfl, -⟩ | ⟨rfl, -⟩ <;> decide
  have named := applySetLineMode_eq hb hlb hmb (headTaken rest s)
  rw [headTaken_line] at named
  have changes (hne : (s.line l).mode ≠ m) (idle : (s.line l).transmitting = false) :
      exec .setLineMode s = .next (answered r .ok [] (changeMode l m (headTaken rest s))) := by
    refine answers ?_
    rw [named, if_neg hne, afterShift, headTaken_line, idle]
    rfl
  refine ⟨fun same => answers (by rw [named, if_pos same]; rfl), fun hne shifting => ?_, fun hne idle active => ?_,
    fun t test idle running => ?_, fun hne idle quiet => ?_⟩
  · show Host.Outcome.next (takeRequest 0x40 false applySetLineMode s) = _
    rw [takeRequest_eq h.1 hc hl (.inl h.2) (by decide), named, if_neg hne, afterShift, headTaken_line, if_pos shifting]
    cases l <;> rfl
  · rw [changes hne idle, changeMode_of_active (by rwa [headTaken_line]) (by rw [← active]; exact hne.symm) ht]
  · rw [changes (by rw [test]; exact ht.symm) idle,
      changeMode_of_test (by rwa [headTaken_line]) (by rwa [headTaken_line]) ht]
  · rw [changes hne idle, changeMode_of_quiet (by rwa [headTaken_line]) (by rwa [headTaken_line]) ht]

end Sys2Proof.Machine
end

section
/-! SUPPORT. The reply to an attempt, from the character that ends it to GAP (R47 to R61). -/

namespace Sys2Proof.Machine

section
variable {s : State} {l : LineId} {x : Exchange}

/-! ### GAP, and a decided outcome (R48) -/

/-- R48: what GAP makes of a line: a frame that the assembler holds belongs to no attempt, and counts as stray. -/
def Line.gapped (x : Exchange) (ln : Line) : Line :=
  { ln with
    exchange := some { x with phase := .gap, timer := some ln.config.lineGap }
    counters := if ln.assembler.isSome then ln.counters.countStray else ln.counters
    assembler := none }

theorem enterGap_eq (hx : (s.line l).exchange = some x) : enterGap l s = s.onLine l (Line.gapped x) :=
  State.onLine_congr (by simp [Line.gapped, hx])

/-- The exchange, its outcome decided: it carries no record and holds no reservation. -/
def Exchange.decided (o : ExchangeOutcome) (x : Exchange) : Exchange :=
  { x with outcome := some o, record := none, holdsReservation := false }

theorem enterGap_decided (hx : (s.line l).exchange = some x) (o : ExchangeOutcome) :
    enterGap l (decideOutcome l o s) = s.onLine l (Line.gapped (x.decided o)) := by
  rw [decideOutcome_eq o hx, enterGap_eq (x := x.decided o) (by rw [State.line_onLine_same]; rfl), State.onLine_onLine]
  rfl

/-! ### What is around the lines -/

theorem converted_onLine (r : Report) (s : State) (l : LineId) (f : Line → Line) :
    (converted r s).onLine l f = converted r (s.onLine l f) := by cases l <;> rfl

theorem converted_line (r : Report) (s : State) (l : LineId) : (converted r s).line l = s.line l := by cases l <;> rfl

theorem recordDone_setStation (q : CommandRecord) (o : CommandOutcome) (d : List Byte) (s : State) (n : Nat)
    (e : Option Station) : (recordDone q o d s).setStation n e = recordDone q o d (s.setStation n e) := by
  unfold State.setStation
  split <;> rfl

/-! ### The result of a roll call (R136) -/

/-- R136: the responders of a scan, with the result of the roll call to x. -/
def Scan.answered (sc : Scan) (x : Exchange) (present : Bool) : List Nat :=
  if present then sc.responders ++ [x.target] else sc.responders

/-- R136: the scan that waits takes the result, and ends COMPLETE when no address remains. -/
theorem rollCallResult_taken {sc : Scan} (hx : (s.line l).exchange = some x) (hs : (s.line l).scan = some sc)
    (hr : sc.rollCall = true) (present : Bool) :
    rollCallResult l present s =
      if sc.last < sc.next then
        converted (.scanDone l .complete (sc.answered x present)) (s.onLine l fun ln => { ln with scan := none })
      else
        s.onLine l fun ln =>
          { ln with scan := some { sc with rollCall := false, responders := sc.answered x present } } := by
  have ended (rs : List Nat) : endScan l .complete
      (s.onLine l fun ln => { ln with scan := some { sc with rollCall := false, responders := rs } })
        = converted (.scanDone l .complete rs) (s.onLine l fun ln => { ln with scan := none }) := by
    rw [endScan_eq, scanEnded, State.line_onLine_same]
    simp only [State.onLine_onLine]
  unfold rollCallResult
  simp only [hs, hr, Bool.not_true, Bool.false_eq_true, if_false, ended]
  cases present with
  | false => rfl
  | true => rw [hx]; rfl

/-- R60, R136: a ROLL_CALL attempt ends, while no scan waits for it. -/
theorem endRollCall_of_idle (hx : (s.line l).exchange = some x)
    (h : ∀ sc, (s.line l).scan = some sc → sc.rollCall = false) (present : Bool) :
    endRollCall l present s =
      s.onLine l (Line.gapped (x.decided (if present then .present else .absent))) := by
  rw [endRollCall, rollCallResult_of_not_waiting h, enterGap_decided hx]

/-- R60, R136: a ROLL_CALL attempt ends with its result. -/
theorem endRollCall_of_waiting {sc : Scan} (hx : (s.line l).exchange = some x) (hs : (s.line l).scan = some sc)
    (hr : sc.rollCall = true) (present : Bool) :
    endRollCall l present s =
      if sc.last < sc.next then
        converted (.scanDone l .complete (sc.answered x present))
          ((s.onLine l (Line.gapped (x.decided (if present then .present else .absent)))).onLine l
            fun ln => { ln with scan := none })
      else
        (s.onLine l (Line.gapped (x.decided (if present then .present else .absent)))).onLine l fun ln =>
          { ln with scan := some { sc with rollCall := false, responders := sc.answered x present } } := by
  rw [endRollCall, rollCallResult_taken hx hs hr]
  by_cases hn : sc.last < sc.next
  · simp only [hn, if_true]
    rw [enterGap_decided (x := x) (by rw [converted_line, State.line_onLine_same]; exact hx), converted_onLine,
      State.onLine_onLine, State.onLine_onLine]
    rfl
  · simp only [hn, if_false]
    rw [enterGap_decided (x := x) (by rw [State.line_onLine_same]; exact hx), State.onLine_onLine, State.onLine_onLine]
    rfl

/-! ### What is handed up in ACTIVE -/

theorem handUp_of_active (hm : (s.line l).mode = .active) (h : HandedUp) : handUp l h s = judgeReply l h s := by
  simp [handUp, hm]

variable {h : HandedUp}

theorem judgeReply_of_rollCall (hx : (s.line l).exchange = some x) (hp : x.phase = .receive) (hk : x.kind = .rollCall) :
    judgeReply l h s = endRollCall l (judge x.kind x.target x.toggleSent h = .passes .present) s := by
  simp only [judgeReply, hx, hp, hk, ne_eq, not_true_eq_false, if_false]

/-- R50: a reply that fails a check, or is a CHECK_FAIL, fails the attempt. -/
theorem judgeReply_of_fails {k : FailureKind} (hx : (s.line l).exchange = some x) (hp : x.phase = .receive)
    (hk : x.kind ≠ .rollCall)
    (hj : judge x.kind x.target x.toggleSent h = .fails k
      ∨ judge x.kind x.target x.toggleSent h = .passes .checkFail ∧ k = .nak) :
    judgeReply l h s = failAttempt l k s := by
  simp only [judgeReply, hx, hp, ne_eq, not_true_eq_false, if_false]
  cases kind : x.kind with
  | rollCall => exact absurd kind hk
  | poll | probe | command | broadcast => rw [kind] at hj; rcases hj with hj | ⟨hj, rfl⟩ <;> rw [hj]

/-- R51: any other that passes is accepted. -/
theorem judgeReply_of_passes {k : ReplyKind} (hx : (s.line l).exchange = some x) (hp : x.phase = .receive)
    (hk : x.kind ≠ .rollCall) (hc : k ≠ .checkFail) (hj : judge x.kind x.target x.toggleSent h = .passes k) :
    judgeReply l h s = enterGap l (acceptReply l x k h.payload s) := by
  simp only [judgeReply, hx, hp, ne_eq, not_true_eq_false, if_false, hj]

/-! ### The last character of a reply -/

variable {p : PartialFrame} {byte : Byte} {fe : Bool}

/-- R47: the character that completes a frame in RECEIVE brings it to judgement. -/
theorem exec_frameReceived_of_receive (hm : (s.line l).mode = .active) (hd : (s.line l).driver = false)
    (hw : (s.line l).awaitsMark = false) (hx : (s.line l).exchange = some x) (hp : x.phase = .receive)
    (ha : (s.line l).assembler = some p) (hl : p.chars.length = 4 + (p.chars.getD 2 0).toNat) :
    exec (.frameReceived l byte fe) s =
      .next
        (judgeReply l ⟨p.chars ++ [byte], p.framing || fe, none⟩
          (s.onLine l fun ln => (ln.received fe).frameEnded ⟨p.chars ++ [byte], p.framing || fe, none⟩)) := by
  have listens : (s.line l).Listens := .of_active hm hd hw
  have whole := ((listens.hearing_of_window hx (.inr hp)).classify_held ha byte).trans
    (congrArg some (PartialFrame.classOf_completes hl byte))
  refine congrArg Host.Outcome.next
    ((characterEvent_of_class (Line.hears_of_mode listens.mode ..) whole).trans ?_)
  rw [takeCharacter_completes ha, handUp_of_active (by simpa [Line.received, Line.frameEnded] using hm)]

/-- R36, R39: what a frame without an error does to the line. -/
def Line.goodFrame (ln : Line) : Line :=
  { ln with
    awaitsMark := false, assembler := none
    counters := { ln.counters with goodFrames := min (ln.counters.goodFrames + 1) 65535 } }

/-- R31: the characters of a frame but the last. -/
theorem lineFrame_front {address : Nat} {control last : Byte} {payload chars : List Byte} (hp : payload.length ≤ 32)
    (h : chars ++ [last] = lineFrame address control payload) : chars.length = 4 + (chars.getD 2 0).toNat := by
  have length : chars.length = payload.length + 4 := by
    have := congrArg List.length h
    simp [lineFrame_length] at this
    omega
  have third : chars.getD 2 0 = b8 payload.length := by
    rw [← List.getD_append chars [last] 0 2 (by omega), h]
    rfl
  rw [length, third, b8_toNat_of_lt (by omega), Nat.add_comm]

theorem exec_frameReceived_good {control : Byte} {payload chars : List Byte} {timer : Option Nat} {last : Byte}
    (hm : (s.line l).mode = .active) (hd : (s.line l).driver = false)
    (hw : (s.line l).awaitsMark = false) (hx : (s.line l).exchange = some x) (hp : x.phase = .receive)
    (ha : (s.line l).assembler = some ⟨chars, false, timer⟩) (hl : payload.length ≤ 32)
    (hf : chars ++ [last] = lineFrame x.target control payload) :
    exec (.frameReceived l last false) s =
      .next (judgeReply l (handedFrame x.target control payload) (s.onLine l Line.goodFrame)) := by
  rw [exec_frameReceived_of_receive hm hd hw hx hp ha (lineFrame_front hl hf)]
  have good : (⟨lineFrame x.target control payload, false, none⟩ : HandedUp).crcMatches = true :=
    handedFrame_crcMatches hl
  have test : (s.line l).testHeard = (s.line l).test := Line.testHeard_of_mode (by simp [hm])
  simp only [hf, Bool.or_false]
  refine congrArg (fun t => Host.Outcome.next (judgeReply l (handedFrame x.target control payload) t))
    (State.onLine_congr ?_)
  simp [Line.received, Line.frameEnded, Line.goodFrame, test, good]

/-- R49: a frame that answers the attempt as it should passes. -/
theorem judge_handedFrame_passes {kind : ExchangeKind} {target : Nat} {sent : Bool} {control : Byte}
    {payload : List Byte} {k : ReplyKind} (ht : target < 256) (hp : payload.length ≤ 32)
    (hc : control.toNat % 16 = k.row.1) (hl : k.row.2.2.1 ≤ payload.length ∧ payload.length ≤ k.row.2.2.2)
    (hk : kind ∈ k.row.2.1) (hs : control.getLsbD 4 = sent ∨ kind = .rollCall) :
    judge kind target sent (handedFrame target control payload) = .passes k := by
  rw [judge_handedFrame ht hp, if_neg (not_not.2 rfl), replyKind_eq_some.2 ⟨hc, hl⟩]
  simp only [replyAllowed_iff.2 hk, Bool.not_true, Bool.false_eq_true, if_false]
  exact if_neg (by tauto)

end

end Sys2Proof.Machine
end

section
/-! PROOF. The replies accepted in a POLL, a PROBE and a ROLL_CALL (R56, R58, R60). -/

namespace Sys2Proof.Machine

section
variable {s : State} {l : LineId} {x : Exchange} {n : Nat} {e : Station} {k : ReplyKind} {payload : List Byte}

/-- R56, R58: what a reply of kind k to a POLL or PROBE does to the station's entry. -/
def Station.answering (e : Station) (k : ReplyKind) (busyHoldoff : Nat) : Station :=
  { e with
    toggle := if k = .busy then e.toggle else !e.toggle
    holdoffTimer := if k = .busy then some busyHoldoff else e.holdoffTimer
    counters := { e.counters with
      completed := min (e.counters.completed + 1) 65535
      busyReplies := if k = .busy then min (e.counters.busyReplies + 1) 65535 else e.counters.busyReplies
      dataReports := if k = .data then min (e.counters.dataReports + 1) 65535 else e.counters.dataReports } }

/-- R56, R58: what becomes of the reservation. -/
def replyQueued (n : Nat) (k : ReplyKind) (payload : List Byte) (s : State) : State :=
  if k = .data then converted (.stationData n payload) s
  else { s with queue := { s.queue with reservations := s.queue.reservations - 1 } }

theorem replyQueued_station (m : Nat) : (replyQueued n k payload s).station m = s.station m := by
  unfold replyQueued
  split <;> rfl

theorem replyQueued_line : (replyQueued n k payload s).line l = s.line l := by
  unfold replyQueued
  split <;> cases l <;> rfl

theorem replyQueued_onLine (f : Line → Line) :
    (replyQueued n k payload s).onLine l f = replyQueued n k payload (s.onLine l f) := by
  unfold replyQueued
  split <;> cases l <;> rfl

theorem replyQueued_setStation (m : Nat) (e : Option Station) :
    (replyQueued n k payload s).setStation m e = replyQueued n k payload (s.setStation m e) := by
  unfold replyQueued State.setStation
  split <;> split <;> rfl

/-- R58: a reply to a PROBE that is accepted. -/
theorem acceptProbe_eq (hn : x.station = some n) (he : s.station n = some e) (hr : x.holdsReservation = true) :
    acceptProbe l x k payload s =
      replyQueued n k payload (s.setStation n (some (e.answering k (s.line l).config.busyHoldoff))) := by
  rw [← replyQueued_setStation]
  have released : (releaseHeld x s).station n = some e := by rw [releaseHeld_eq hr]; exact he
  have converts : (convert (.stationData n payload) s).station n = some e := he
  cases k with
  | data =>
    simp only [acceptProbe, acceptData, hn]
    rw [State.onStation_of_station converts]
    rfl
  | busy =>
    simp only [acceptProbe]
    rw [onNamed_of_station hn released, releaseHeld_eq hr]
    rfl
  | empty | done | reject | checkFail | present =>
    simp only [acceptProbe]
    rw [onNamed_of_station hn released, releaseHeld_eq hr]
    rfl

/-- R56: a POLL starts the poll timer besides. -/
theorem acceptPoll_eq (hn : x.station = some n) (he : s.station n = some e) (hr : x.holdsReservation = true) :
    acceptPoll l x k payload s =
      replyQueued n k payload
        (s.setStation n (some (e.answering k (s.line l).config.busyHoldoff).startPollTimer)) := by
  have probed : acceptPoll l x k payload s = onNamed x Station.startPollTimer (acceptProbe l x k payload s) := by
    cases k <;> rfl
  rw [probed, acceptProbe_eq hn he hr, onNamed_of_station hn
    (by rw [replyQueued_station, State.station_setStation_same _ _ _ (State.station_lt he)]), replyQueued_setStation,
    State.setStation_setStation]

theorem acceptReply_of_poll (hk : x.kind = .poll) (hn : x.station = some n) (he : s.station n = some e)
    (hr : x.holdsReservation = true) :
    acceptReply l x k payload s =
      decideOutcome l (.accepted k)
        (replyQueued n k payload
          (s.setStation n (some (e.answering k (s.line l).config.busyHoldoff).startPollTimer))) := by
  rw [← acceptPoll_eq hn he hr]
  simp only [acceptReply, hk]

theorem acceptReply_of_probe (hk : x.kind = .probe) (hn : x.station = some n) (he : s.station n = some e)
    (hr : x.holdsReservation = true) :
    acceptReply l x k payload s =
      decideOutcome l (.accepted k)
        (replyQueued n k payload (s.setStation n (some (e.answering k (s.line l).config.busyHoldoff)))) := by
  rw [← acceptProbe_eq hn he hr]
  simp only [acceptReply, hk]

end

/-- Settles O42. -/
theorem pollAndProbeRepliesAreAccepted : Obligations.PollAndProbeRepliesAreAccepted := by
  refine ⟨fun s l x chars timer last control hm hd hw hx hp hk ha ht hc hf => ?_,
    fun s l x n e chars payload timer last control code kind hm hd hw hx hp hk hn he hr ha ht hl hcode htog hf hkind => ?_⟩
  · have hx' : ((s.onLine l Line.goodFrame).line l).exchange = some x := by rwa [State.line_onLine_same]
    have passes : judge x.kind x.target x.toggleSent (handedFrame x.target control []) = .passes .present :=
      judge_handedFrame_passes ht (by simp) hc (by simp [ReplyKind.row]) (by simp [hk, ReplyKind.row]) (.inr hk)
    have present : judgeReply l (handedFrame x.target control []) (s.onLine l Line.goodFrame)
        = endRollCall l true (s.onLine l Line.goodFrame) := by
      rw [judgeReply_of_rollCall hx' hp hk, passes]
      rfl
    rw [exec_frameReceived_good hm hd hw hx hp ha (by simp) hf, present]
    refine ⟨fun idle => ?_, fun sc hs hroll => ?_⟩
    · rw [endRollCall_of_idle hx' (by rwa [State.line_onLine_same]), State.onLine_onLine]
      rfl
    · rw [endRollCall_of_waiting hx' (by rw [State.line_onLine_same]; exact hs) hroll]
      have judged : (s.onLine l Line.goodFrame).onLine l (Line.gapped (x.decided .present))
          = s.onLine l fun ln => Line.gapped (x.decided .present) ln.goodFrame := State.onLine_onLine ..
      simp only [if_true, judged]
      rfl
  · have hx' : ((s.onLine l Line.goodFrame).line l).exchange = some x := by rwa [State.line_onLine_same]
    have he' : (s.onLine l Line.goodFrame).station n = some e := by rwa [State.onLine_station]
    have holdoff : ((s.onLine l Line.goodFrame).line l).config.busyHoldoff = (s.line l).config.busyHoldoff := by
      rw [State.line_onLine_same]; rfl
    have notRoll : x.kind ≠ .rollCall := by rcases hk with hk | hk <;> simp [hk]
    have row : control.toNat % 16 = kind.row.1 ∧ (kind.row.2.2.1 ≤ payload.length ∧ payload.length ≤ kind.row.2.2.2)
        ∧ x.kind ∈ kind.row.2.1 ∧ kind ≠ .checkFail := by
      rw [hcode]
      rcases hkind with ⟨rfl, rfl, hne⟩ | ⟨rfl, rfl, rfl⟩ | ⟨rfl, rfl, rfl⟩
      · have := List.length_pos_iff.2 hne
        exact ⟨rfl, ⟨this, hl⟩, by rcases hk with hk | hk <;> simp [hk, ReplyKind.row], nofun⟩
      · exact ⟨rfl, by simp [ReplyKind.row], by rcases hk with hk | hk <;> simp [hk, ReplyKind.row], nofun⟩
      · exact ⟨rfl, by simp [ReplyKind.row], by rcases hk with hk | hk <;> simp [hk, ReplyKind.row], nofun⟩
    obtain ⟨hcode', hlen, hall, hck⟩ := row
    have passes := judge_handedFrame_passes (control := control) (sent := x.toggleSent) ht hl hcode' hlen hall (.inl htog)
    rw [exec_frameReceived_good hm hd hw hx hp ha hl hf, judgeReply_of_passes hx' hp notRoll hck passes,
      handedFrame_payload hl]
    have accepted (f : Station) :
        enterGap l (decideOutcome l (.accepted kind)
            (replyQueued n kind payload ((s.onLine l Line.goodFrame).setStation n (some f))))
          = let t := (s.setStation n (some f)).onLine l
              fun ln => Line.gapped (x.decided (.accepted kind)) ln.goodFrame
            if kind = .data then converted (.stationData n payload) t
            else { t with queue := { s.queue with reservations := s.queue.reservations - 1 } } := by
      rw [enterGap_decided (x := x) (by rwa [replyQueued_line, State.setStation_line]), replyQueued_onLine,
        State.setStation_onLine, State.onLine_onLine, State.setStation_onLine, replyQueued, State.setStation_queue,
        State.onLine_queue]
    rcases hk with hk | hk
    · rw [acceptReply_of_poll hk hn he' hr, holdoff, accepted, if_neg (show ¬x.kind = .probe by simp [hk])]
      rfl
    · rw [acceptReply_of_probe hk hn he' hr, holdoff, accepted, if_pos hk]
      rfl

end Sys2Proof.Machine
end

section
/-! PROOF. The replies accepted in a COMMAND (R57, R62). -/

namespace Sys2Proof.Machine

/-- A record that an exchange carries: the oldest of its station in the pool (R97, R99). -/
structure Carries (s : State) (x : Exchange) (n : Nat) (e : Station) (q : CommandRecord) : Prop where
  station : x.station = some n
  entry : s.station n = some e
  record : x.record = some q.tag
  tags : TagsDistinct s
  pooled : q ∈ s.pool.records
  owner : q.station = some n
  oldest : ∀ c ∈ s.pool.records.takeWhile (·.tag != q.tag), c.station ≠ some n

section
variable {s : State} {l : LineId} {x : Exchange} {n : Nat} {e : Station} {q : CommandRecord}

theorem Carries.onLine (h : Carries s x n e q) (l : LineId) (f : Line → Line) : Carries (s.onLine l f) x n e q where
  station := h.station
  entry := by rw [State.onLine_station]; exact h.entry
  record := h.record
  tags := by unfold TagsDistinct; rw [State.onLine_pool]; exact h.tags
  pooled := by rw [State.onLine_pool]; exact h.pooled
  owner := h.owner
  oldest := by rw [State.onLine_pool]; exact h.oldest

theorem Carries.setStation (h : Carries s x n e q) (f : Station) : Carries (s.setStation n (some f)) x n f q where
  station := h.station
  entry := State.station_setStation_same _ _ _ (State.station_lt h.entry)
  record := h.record
  tags := by unfold TagsDistinct; rw [State.setStation_pool]; exact h.tags
  pooled := by rw [State.setStation_pool]; exact h.pooled
  owner := h.owner
  oldest := by rw [State.setStation_pool]; exact h.oldest

/-- R99: the record completes, and the busy streak of its station becomes 0. -/
theorem Carries.completes (h : Carries s x n e q) (o : CommandOutcome) (d : List Byte) :
    completeCarried x o d s = recordDone q o d (s.setStation n (some { e with busyStreak := 0 })) := by
  rw [completeCarried_eq o d h.record h.tags h.pooled,
    completeRecord_of_oldest o d h.tags h.pooled h.owner h.entry h.oldest]

/-- The station that the exchange names changes after the record has completed. -/
theorem Carries.completes_onNamed (h : Carries s x n e q) (o : CommandOutcome) (d : List Byte) (f : Station → Station) :
    onNamed x f (completeCarried x o d s) = recordDone q o d (s.setStation n (some (f { e with busyStreak := 0 }))) := by
  rw [h.completes, onNamed_of_station h.station ((recordDone_station ..).trans (h.setStation _).entry),
    recordDone_setStation, State.setStation_setStation]

theorem onRecord_eq (tag : Half) (f : CommandRecord → CommandRecord) (s : State) :
    onRecord tag f s =
      { s with pool := { s.pool with records := s.pool.records.map fun c => if c.tag = tag then f c else c } } := rfl

theorem onRecord_of_onLine (tag : Half) (f : CommandRecord → CommandRecord) (s : State) (l : LineId) (g : Line → Line) :
    (onRecord tag f s).onLine l g = onRecord tag f (s.onLine l g) := by cases l <;> rfl

/-! ### The reply accepted -/

/-- R57: what DONE and REJECT do to the station's entry. -/
def Station.executed (e : Station) : Station :=
  { e with
    toggle := !e.toggle, busyStreak := 0, pollTimer := if e.pollPeriod = 0 then none else some e.pollPeriod
    counters := { e.counters with completed := min (e.counters.completed + 1) 65535 } }

theorem acceptCommand_eq (h : Carries s x n e q) (o : CommandOutcome) (d : List Byte) :
    acceptCommand x o d s = recordDone q o d (s.setStation n (some e.executed)) := h.completes_onNamed ..

/-- R62: what BUSY does to the station's entry. -/
def Station.refusing (e : Station) (busyHoldoff : Nat) : Station :=
  { e with
    busyStreak := min (e.busyStreak + 1) 15, holdoffTimer := some busyHoldoff
    counters := { e.counters with
      completed := min (e.counters.completed + 1) 65535
      busyReplies := min (e.counters.busyReplies + 1) 65535 } }

theorem acceptCommandBusy_eq (h : Carries s x n e q) :
    acceptCommandBusy l x s =
      busyDisposition l x (min (e.busyStreak + 1) 15)
        (s.setStation n (some (e.refusing (s.line l).config.busyHoldoff))) := by
  simp only [acceptCommandBusy, h.station, h.entry]
  rfl

variable {streak : Nat}

/-- R62: at the busy limit the record completes STATION_BUSY. -/
theorem busyDisposition_of_limit (h : Carries s x n e q) (hl : (s.line l).config.busyLimit ≤ streak) :
    busyDisposition l x streak s =
      recordDone q .stationBusy []
        (s.setStation n (some { e with sticky := e.sticky ||| 0x100#16, busyStreak := 0 })) :=
  (if_pos hl).trans (h.completes_onNamed ..)

/-- R62: below it a record with a cancel pending completes CANCELLED. -/
theorem busyDisposition_of_cancel (h : Carries s x n e q) (hl : streak < (s.line l).config.busyLimit)
    (hc : q.cancelPending = true) :
    busyDisposition l x streak s =
      recordDone q .cancelled [] (s.setStation n (some { e with busyStreak := 0 })) := by
  refine (if_neg (Nat.not_le.2 hl)).trans ?_
  simp only [h.record, Pool.find_of_mem h.tags h.pooled, hc, if_true]
  exact completeRecord_of_oldest _ _ h.tags h.pooled h.owner h.entry h.oldest

/-- R62: and another returns to QUEUED. -/
theorem busyDisposition_of_requeue (h : Carries s x n e q) (hl : streak < (s.line l).config.busyLimit)
    (hc : q.cancelPending = false) :
    busyDisposition l x streak s = onRecord q.tag (fun c => { c with state := .queued }) s := by
  refine (if_neg (Nat.not_le.2 hl)).trans ?_
  simp only [h.record, Pool.find_of_mem h.tags h.pooled, hc, Bool.false_eq_true, if_false]

end

/-- Settles O43. -/
theorem commandRepliesAreAccepted : Obligations.CommandRepliesAreAccepted := by
  intro s l x n e q chars payload timer last control code kind hm hd hw hx hp hk hn he hr htags hq ho hold ha ht hl
    hcode htog hf t answered streak busy
  have good : Carries (s.onLine l Line.goodFrame) x n e q :=
    (Carries.mk hn he hr htags hq ho hold).onLine l Line.goodFrame
  have hx' : ((s.onLine l Line.goodFrame).line l).exchange = some x := by rwa [State.line_onLine_same]
  have config : ((s.onLine l Line.goodFrame).line l).config = (s.line l).config := by rw [State.line_onLine_same]; rfl
  have accepts (hkind : kind ∈ [ReplyKind.done, .reject, .busy]) (hrow : code = kind.row.1)
      (hlen : kind.row.2.2.1 ≤ payload.length ∧ payload.length ≤ kind.row.2.2.2) :
      exec (.frameReceived l last false) s
        = .next (enterGap l (acceptReply l x kind payload (s.onLine l Line.goodFrame))) := by
    have allowed : x.kind ∈ kind.row.2.1 ∧ kind ≠ .checkFail := by
      rw [hk]
      simp only [List.mem_cons, List.not_mem_nil, or_false] at hkind
      rcases hkind with rfl | rfl | rfl <;> exact ⟨by simp [ReplyKind.row], nofun⟩
    rw [exec_frameReceived_good hm hd hw hx hp ha hl hf,
      judgeReply_of_passes hx' hp (by simp [hk]) allowed.2
        (judge_handedFrame_passes ht hl (hcode.trans hrow) hlen allowed.1 (.inl htog)), handedFrame_payload hl]
  have ends (f : Station) : ((s.onLine l Line.goodFrame).setStation n (some f)).onLine l
      (Line.gapped (x.decided (.accepted kind))) = t f := by
    rw [State.setStation_onLine, State.onLine_onLine, ← State.setStation_onLine]
    rfl
  have done (o : CommandOutcome) (d : List Byte) (f : Station)
      (h : acceptReply l x kind payload (s.onLine l Line.goodFrame)
        = decideOutcome l (.accepted kind) (recordDone q o d ((s.onLine l Line.goodFrame).setStation n (some f)))) :
      enterGap l (acceptReply l x kind payload (s.onLine l Line.goodFrame)) = recordDone q o d (t f) := by
    rw [h, enterGap_decided (x := x) (by rwa [recordDone_line, State.setStation_line]), recordDone_onLine, ends]
  have refused (hkind : kind = .busy) : acceptReply l x kind payload (s.onLine l Line.goodFrame)
      = decideOutcome l (.accepted kind) (busyDisposition l x streak
          ((s.onLine l Line.goodFrame).setStation n (some busy))) := by
    subst hkind
    simp only [acceptReply, hk, acceptCommandBusy_eq good, config]
    rfl
  have limit : (((s.onLine l Line.goodFrame).setStation n (some busy)).line l).config = (s.line l).config := by
    rw [State.setStation_line, config]
  refine ⟨fun hc hkind => ?_, fun hc hkind => ?_, fun hc hkind hnil hlim => ?_, fun hc hkind hnil hlim hcan => ?_,
    fun hc hkind hnil hlim hcan => ?_⟩
  · rw [accepts (by simp [hkind]) (by simp [hkind, hc, ReplyKind.row]) (by simpa [hkind, ReplyKind.row] using hl)]
    subst hkind
    refine congrArg _ (done _ _ answered ?_)
    simp only [acceptReply, hk, acceptCommand_eq good]
    rfl
  · rw [accepts (by simp [hkind]) (by simp [hkind, hc, ReplyKind.row]) (by simpa [hkind, ReplyKind.row] using hl)]
    subst hkind
    refine congrArg _ (done _ _ answered ?_)
    simp only [acceptReply, hk, acceptCommand_eq good]
    rfl
  · rw [accepts (by simp [hkind]) (by simp [hkind, hc, ReplyKind.row]) (by simp [hkind, hnil, ReplyKind.row])]
    refine congrArg _ (done _ _ _ ?_)
    rw [refused hkind, busyDisposition_of_limit (good.setStation busy) (by rwa [limit]), State.setStation_setStation]
  · rw [accepts (by simp [hkind]) (by simp [hkind, hc, ReplyKind.row]) (by simp [hkind, hnil, ReplyKind.row])]
    refine congrArg _ (done _ _ _ ?_)
    rw [refused hkind, busyDisposition_of_cancel (good.setStation busy) (by rwa [limit]) hcan,
      State.setStation_setStation]
  · rw [accepts (by simp [hkind]) (by simp [hkind, hc, ReplyKind.row]) (by simp [hkind, hnil, ReplyKind.row]),
      refused hkind, busyDisposition_of_requeue (good.setStation busy) (by rwa [limit]) hcan,
      enterGap_decided (x := x) (by simpa [onRecord_line] using hx')]
    refine congrArg _ ?_
    have pool : (t busy).pool = s.pool := by rw [State.onLine_pool, State.setStation_pool]
    rw [onRecord_of_onLine, ends busy, onRecord_eq, pool]

end Sys2Proof.Machine
end

section
/-! PROOF. Spoilt replies, and what a failed attempt comes to (R53, R54, R60, R61). -/

namespace Sys2Proof.Machine

section
variable {s : State} {l : LineId} {x : Exchange} {n : Nat} {e : Station} {q : CommandRecord} {k : FailureKind}

/-! ### A frame that has begun counts as stray (R47, R48) -/

/-- R48: the assembler seeks again, and a frame that it held counts as stray. -/
def Line.seeking (ln : Line) : Line :=
  { ln with
    assembler := none
    counters := if ln.assembler.isSome then ln.counters.countStray else ln.counters }

/-- R53: a failed attempt of x, on a line whose assembler seeks. -/
def Line.failing (x : Exchange) (ln : Line) : Line :=
  { ln with
    exchange := some { x with phase := .gap, timer := some ln.config.lineGap }
    counters := { ln.counters with attemptsFailed := min (ln.counters.attemptsFailed + 1) 65535 } }

theorem Line.gapped_countAttempt (y : Exchange) (ln : Line) :
    Line.gapped y { ln with exchange := some x, counters := ln.counters.countAttempt } = Line.failing y ln.seeking := by
  unfold Line.failing Line.seeking Line.gapped
  cases ln.assembler <;> rfl

/-! ### A failed attempt is recorded (R53) -/

/-- R53: the line, once the failure has been entered. -/
def Line.attempted (x : Exchange) (k : FailureKind) (ln : Line) : Line :=
  { ln with exchange := some { x with lastFailure := some k }, counters := ln.counters.countAttempt }

/-- R53: what is entered besides the carried record's failure. -/
def failureEntered (l : LineId) (x : Exchange) (n : Nat) (e : Station) (k : FailureKind) (s : State) : State :=
  (s.setStation n (some (e.recordFailure k))).onLine l (Line.attempted x k)

theorem onRecord_setStation (tag : Half) (f : CommandRecord → CommandRecord) (s : State) (m : Nat) (e : Option Station) :
    (onRecord tag f s).setStation m e = onRecord tag f (s.setStation m e) := by
  unfold State.setStation
  split <;> rfl

theorem onCarried_onLine (f : CommandRecord → CommandRecord) (s : State) (l : LineId) (g : Line → Line) :
    (onCarried x f s).onLine l g = onCarried x f (s.onLine l g) := by
  unfold onCarried
  split
  · rfl
  · exact onRecord_of_onLine ..

theorem onCarried_setStation (f : CommandRecord → CommandRecord) (s : State) (m : Nat) (e : Option Station) :
    (onCarried x f s).setStation m e = onCarried x f (s.setStation m e) := by
  unfold onCarried
  split
  · rfl
  · exact onRecord_setStation ..

theorem recordFailedAttempt_eq (hx : (s.line l).exchange = some x) (hn : x.station = some n)
    (he : s.station n = some e) :
    recordFailedAttempt l x k s
      = onCarried x (fun r => { r with lastFailure := some k }) (failureEntered l x n e k s) := by
  have entry : (onCarried x (fun r => { r with lastFailure := some k })
      (s.onLine l fun ln => { ln with exchange := some { x with lastFailure := some k } })).station n = some e := by
    rw [onCarried_station, State.onLine_station, he]
  rw [recordFailedAttempt, onExchange_eq _ hx, onNamed_of_station hn entry, countLine, onCarried_setStation,
    onCarried_onLine, ← State.setStation_onLine, State.onLine_onLine]
  rfl

theorem failureEntered_station (hn : n < 48) : (failureEntered l x n e k s).station n = some (e.recordFailure k) := by
  rw [failureEntered, State.onLine_station, State.station_setStation_same _ _ _ hn]

theorem failureEntered_exchange :
    ((failureEntered l x n e k s).line l).exchange = some { x with lastFailure := some k } := by
  rw [failureEntered, State.line_onLine_same]
  rfl

/-- R48: GAP after a failure. -/
theorem failureEntered_gapped (y : Exchange) :
    (failureEntered l x n e k s).onLine l (Line.gapped y)
      = (s.setStation n (some (e.recordFailure k))).onLine l fun ln => Line.failing y ln.seeking := by
  rw [failureEntered, State.onLine_onLine]
  exact State.onLine_congr (Line.gapped_countAttempt ..)

/-! ### The attempt fails (R53, R54) -/

/-- R54: within the retry limit another attempt follows the gap. -/
theorem failAttempt_of_retry (hx : (s.line l).exchange = some x) (hn : x.station = some n) (he : s.station n = some e)
    (hl : x.attempt ≤ e.retryLimit) :
    failAttempt l k s
      = onCarried x (fun r => { r with lastFailure := some k })
          ((s.setStation n (some (e.recordFailure k))).onLine l
            fun ln => Line.failing { x with lastFailure := some k } ln.seeking) := by
  have limit : retryLimitOf x (recordFailedAttempt l x k s) = e.retryLimit := by
    rw [recordFailedAttempt_eq hx hn he, retryLimitOf_eq (e := e.recordFailure k) hn
      (by rw [onCarried_station, failureEntered_station (State.station_lt he)])]
    rfl
  simp only [failAttempt, hx, limit, hl, if_true]
  rw [recordFailedAttempt_eq hx hn he, ← failureEntered_gapped, ← onCarried_onLine]
  refine enterGap_eq ?_
  have kept : ((onCarried x (fun r => { r with lastFailure := some k }) (failureEntered l x n e k s)).line l)
      = (failureEntered l x n e k s).line l := by
    unfold onCarried
    split
    · rfl
    · exact onRecord_line ..
  rw [kept, failureEntered_exchange]

theorem failAttempt_of_last (hx : (s.line l).exchange = some x) (hn : x.station = some n) (he : s.station n = some e)
    (hl : e.retryLimit < x.attempt) :
    failAttempt l k s
      = enterGap l (exchangeFailed l x
          (onCarried x (fun r => { r with lastFailure := some k }) (failureEntered l x n e k s))) := by
  have limit : retryLimitOf x (recordFailedAttempt l x k s) = e.retryLimit := by
    rw [recordFailedAttempt_eq hx hn he, retryLimitOf_eq (e := e.recordFailure k) hn
      (by rw [onCarried_station, failureEntered_station (State.station_lt he)])]
    rfl
  simp only [failAttempt, hx, limit, Nat.not_le.2 hl, if_false]
  rw [recordFailedAttempt_eq hx hn he]

/-- R61: the exchange x, failed with kind k at its last attempt. -/
def Exchange.failedWith (x : Exchange) (k : FailureKind) : Exchange :=
  ({ x with lastFailure := some k } : Exchange).decided .failed

theorem releaseHeld_of_holds (h : x.holdsReservation = true) (s : State) : releaseHeld x s = release s := if_pos h

theorem release_onLine (s : State) (l : LineId) (f : Line → Line) :
    (release s).onLine l f = release (s.onLine l f) := by cases l <;> rfl

theorem release_setStation (s : State) (m : Nat) (e : Option Station) :
    (release s).setStation m e = release (s.setStation m e) := by
  unfold State.setStation
  split <;> rfl

/-- R61: a PROBE that has failed releases its reservation. -/
theorem failAttempt_of_last_probe (hx : (s.line l).exchange = some x) (hn : x.station = some n)
    (he : s.station n = some e) (hl : e.retryLimit < x.attempt) (hk : x.kind = .probe) (hr : x.record = none)
    (hh : x.holdsReservation = true) :
    failAttempt l k s
      = release ((s.setStation n (some (e.recordFailure k))).onLine l
          fun ln => Line.failing (x.failedWith k) ln.seeking) := by
  rw [failAttempt_of_last hx hn he hl, onCarried_of_none hr]
  simp only [exchangeFailed, hk, releaseHeld_of_holds hh]
  rw [enterGap_decided (x := { x with lastFailure := some k })
    (by rw [release_line, failureEntered_exchange]), release_onLine, failureEntered_gapped]
  rfl

/-- R61: a POLL starts its poll timer besides. -/
theorem failAttempt_of_last_poll (hx : (s.line l).exchange = some x) (hn : x.station = some n)
    (he : s.station n = some e) (hl : e.retryLimit < x.attempt) (hk : x.kind = .poll) (hr : x.record = none)
    (hh : x.holdsReservation = true) :
    failAttempt l k s
      = release ((s.setStation n (some (e.recordFailure k).startPollTimer)).onLine l
          fun ln => Line.failing (x.failedWith k) ln.seeking) := by
  rw [failAttempt_of_last hx hn he hl, onCarried_of_none hr]
  simp only [exchangeFailed, hk, releaseHeld_of_holds hh]
  rw [onNamed_of_station (e := e.recordFailure k) hn
      (by rw [release_station, failureEntered_station (State.station_lt he)]), release_setStation,
    enterGap_decided (x := { x with lastFailure := some k })
      (by rw [release_line, State.setStation_line, failureEntered_exchange]), release_onLine,
    State.setStation_onLine, failureEntered_gapped, ← State.setStation_onLine, State.setStation_setStation]
  rfl

theorem Carries.onRecord (h : Carries s x n e q) {f : CommandRecord → CommandRecord} (hf : ∀ r, (f r).tag = r.tag)
    (hs : ∀ r, (f r).station = r.station) : Carries (onRecord q.tag f s) x n e (f q) where
  station := h.station
  entry := by rw [onRecord_station]; exact h.entry
  record := by rw [hf]; exact h.record
  tags := onRecord_tagsDistinct hf h.tags
  pooled := mem_onRecord h.pooled
  owner := by rw [hs]; exact h.owner
  oldest := by
    have same (r : CommandRecord) : (if r.tag = q.tag then f r else r).tag = r.tag
        ∧ (if r.tag = q.tag then f r else r).station = r.station := by
      split
      · exact ⟨hf r, hs r⟩
      · exact ⟨rfl, rfl⟩
    rw [hf, onRecord_pool]
    intro c hc
    simp only [List.takeWhile_map, List.mem_map] at hc
    obtain ⟨r, hr, rfl⟩ := hc
    rw [(same r).2]
    refine h.oldest r ?_
    convert hr using 3 with r'
    exact congrArg (· != q.tag) (same r').1.symm

/-- R61: a COMMAND completes its record FAILED. -/
theorem failAttempt_of_last_command (hx : (s.line l).exchange = some x) (h : Carries s x n e q)
    (hl : e.retryLimit < x.attempt) (hk : x.kind = .command) :
    failAttempt l k s
      = recordDone { q with lastFailure := some k } .failed []
          ((s.setStation n (some { e.recordFailure k with busyStreak := 0 })).onLine l
            fun ln => Line.failing (x.failedWith k) ln.seeking) := by
  have entered : Carries (failureEntered l x n e k s) x n (e.recordFailure k) q := (h.setStation _).onLine ..
  have failed : Carries (onRecord q.tag (fun r => { r with lastFailure := some k }) (failureEntered l x n e k s)) x n
      (e.recordFailure k) { q with lastFailure := some k } := entered.onRecord (fun _ => rfl) (fun _ => rfl)
  rw [failAttempt_of_last hx h.station h.entry hl, onCarried_of_some h.record]
  simp only [exchangeFailed, hk]
  rw [failed.completes, ← recordDone_setStation,
    recordDone_onRecord (q := { q with lastFailure := some k }) (f := fun r => { r with lastFailure := some k })
      .failed [] (fun _ => rfl),
    enterGap_decided (x := { x with lastFailure := some k })
      (by rw [State.setStation_line, recordDone_line, failureEntered_exchange]),
    recordDone_setStation, recordDone_onLine, State.setStation_onLine, failureEntered_gapped,
    ← State.setStation_onLine, State.setStation_setStation]
  rfl

/-! ### What is judged -/

/-- R49: an abandoned frame fails FRAMING or TRUNCATED. -/
theorem judge_abandoned (kind : ExchangeKind) (target : Nat) (sent : Bool) (chars : List Byte) (framing : Bool)
    (cause : AbandonCause) :
    judge kind target sent ⟨chars, framing, some cause⟩ = .fails (if framing then .framing else .truncated) := by
  cases framing <;> simp [judge]

end

/-- Settles O51. -/
theorem spoiltRepliesFailTheAttempt : Obligations.SpoiltRepliesFailTheAttempt := by
  intro s l x n e q p byte fe hm hd hx hp ha htags hkinds up last inGap decided failed absent ends spoilt heard
  have active : (s.line l).testHeard = (s.line l).test := Line.testHeard_of_mode (by simp [hm])
  -- What is handed up spoils the attempt, whatever it has done to the line before.
  have spoils (h : HandedUp) (k : FailureKind) (f g : Line → Line) (hf : (f (s.line l)).exchange = some x)
      (hs : (f (s.line l)).scan = (s.line l).scan)
      (hg : (f (s.line l)).seeking = { g (s.line l) with assembler := none })
      (hj : judge x.kind x.target x.toggleSent h = .fails k
        ∨ judge x.kind x.target x.toggleSent h = .passes .checkFail ∧ k = .nak) :
      judgeReply l h (s.onLine l f) = ends k g := by
    have hx' : ((s.onLine l f).line l).exchange = some x := by rwa [State.line_onLine_same]
    have gapped (y : Exchange) : (s.onLine l f).onLine l (Line.gapped y) = s.onLine l fun ln => inGap y (g ln) := by
      rw [State.onLine_onLine]
      refine State.onLine_congr ?_
      show ({ (f (s.line l)).seeking with
        exchange := some { y with phase := .gap, timer := some (f (s.line l)).seeking.config.lineGap } } : Line) = _
      rw [hg]
    by_cases roll : x.kind = .rollCall
    · have missing : judge x.kind x.target x.toggleSent h ≠ .passes .present := by
        rcases hj with hj | ⟨hj, -⟩ <;> simp [hj]
      have ending : ends k g = absent g := if_pos roll
      rw [judgeReply_of_rollCall hx' hp roll, decide_eq_false missing, ending]
      cases hscan : (s.line l).scan with
      | none =>
        rw [endRollCall_of_idle hx' (by simp [State.line_onLine_same, hs, hscan])]
        simp only [absent, hscan]
        exact gapped _
      | some sc =>
        have hscan' : ((s.onLine l f).line l).scan = some sc := by rw [State.line_onLine_same, hs, hscan]
        simp only [absent, hscan]
        cases hroll : sc.rollCall with
        | false =>
          rw [endRollCall_of_idle hx' (fun sc' h' => by rw [hscan'] at h'; cases h'; exact hroll)]
          exact gapped _
        | true =>
          rw [endRollCall_of_waiting hx' hscan' hroll]
          simp only [Bool.false_eq_true, if_false, gapped]
          rfl
    · obtain ⟨hn, he, kinds⟩ := hkinds.resolve_left roll
      have he' : (s.onLine l f).station n = some e := by rwa [State.onLine_station]
      have carried : x.kind = .command → Carries (s.onLine l f) x n e q := fun hk => by
        rcases kinds with ⟨h | h, -⟩ | ⟨-, hr, hq, ho, hold⟩
        · simp [hk] at h
        · simp [hk] at h
        · exact (Carries.mk hn he hr htags hq ho hold).onLine l f
      have entered (timer : Option Nat) (streak : Nat) (y : Exchange)
          (ht : (if last ∧ x.kind = .poll then (if e.pollPeriod = 0 then none else some e.pollPeriod) else e.pollTimer)
            = timer)
          (hb : (if last ∧ x.kind = .command then 0 else e.busyStreak) = streak)
          (hy : (if last then decided .failed { x with lastFailure := some k } else { x with lastFailure := some k }) = y) :
          ((s.onLine l f).setStation n
            (some { e.recordFailure k with pollTimer := timer, busyStreak := streak })).onLine l
              (fun ln => Line.failing y ln.seeking) = failed k g := by
        subst ht hb hy
        rw [State.setStation_onLine, State.onLine_onLine, ← State.setStation_onLine]
        refine State.onLine_congr ?_
        rw [State.setStation_line, hg]
        rfl
      have queue : (failed k g).queue = s.queue := by rw [State.onLine_queue, State.setStation_queue]
      have pool : (failed k g).pool = s.pool := by rw [State.onLine_pool, State.setStation_pool]
      rw [judgeReply_of_fails hx' hp roll hj]
      by_cases command : x.kind = .command
      · have carries := carried command
        by_cases hl : e.retryLimit < x.attempt
        · have hlast : last = true := decide_eq_true hl
          have ending : ends k g = recordDone { q with lastFailure := some k } .failed [] (failed k g) :=
            (if_neg roll).trans ((if_pos command).trans (if_pos hlast))
          rw [failAttempt_of_last_command hx' carries hl command, ending,
            ← entered e.pollTimer 0 (x.failedWith k) (if_neg (by simp [command])) (if_pos ⟨hlast, command⟩)
              (if_pos hlast)]
          rfl
        · have hlast : last = false := decide_eq_false hl
          have ending : ends k g = onRecord q.tag (fun r => { r with lastFailure := some k }) (failed k g) := by
            rw [onRecord_eq, pool]
            exact (if_neg roll).trans ((if_pos command).trans (if_neg (by simp [hlast])))
          rw [failAttempt_of_retry hx' hn he' (Nat.not_lt.1 hl), onCarried_of_some carries.record, ending,
            ← entered e.pollTimer e.busyStreak { x with lastFailure := some k } (if_neg (by simp [hlast]))
              (if_neg (by simp [hlast])) (if_neg (by simp [hlast]))]
          rfl
      · obtain ⟨hpoll, hr, hh⟩ := kinds.resolve_right fun h => command h.1
        by_cases hl : e.retryLimit < x.attempt
        · have hlast : last = true := decide_eq_true hl
          have ending : ends k g = release (failed k g) := by
            refine ((if_neg roll).trans ((if_neg command).trans (if_pos hlast))).trans ?_
            rw [← queue]
            rfl
          rw [ending]
          rcases hpoll with poll | probe
          · rw [failAttempt_of_last_poll hx' hn he' hl poll hr hh,
              ← entered _ e.busyStreak (x.failedWith k) (if_pos ⟨hlast, poll⟩) (if_neg (by simp [command]))
                (if_pos hlast)]
            rfl
          · rw [failAttempt_of_last_probe hx' hn he' hl probe hr hh,
              ← entered e.pollTimer e.busyStreak (x.failedWith k) (if_neg (by simp [probe])) (if_neg (by simp [command]))
                (if_pos hlast)]
            rfl
        · have hlast : last = false := decide_eq_false hl
          have ending : ends k g = failed k g :=
            (if_neg roll).trans ((if_neg command).trans (if_neg (by simp [hlast])))
          rw [failAttempt_of_retry hx' hn he' (Nat.not_lt.1 hl), onCarried_of_none hr, ending,
            ← entered e.pollTimer e.busyStreak { x with lastFailure := some k } (if_neg (by simp [hlast]))
              (if_neg (by simp [hlast])) (if_neg (by simp [hlast]))]
          rfl
  have abandons (chars : List Byte) (framing : Bool) (cause : AbandonCause) :
      judge x.kind x.target x.toggleSent ⟨chars, framing, some cause⟩ = .fails (spoilt framing) := by
    rw [judge_abandoned]
  refine ⟨fun ht => ?_, fun hw => ?_⟩
  · rw [exec_intercharacterTimeout ha ht, abandonFrame_eq,
      handUp_of_active (by rw [State.line_onLine_same]; exact hm)]
    exact congrArg _ (spoils _ _ _ _ hx rfl rfl (.inl (abandons ..)))
  · have listens : (s.line l).Listens := .of_active hm hd hw
    have hearing := listens.hearing_of_window hx (.inr hp)
    have hears (mark : Bool) : (s.line l).hears ⟨byte, mark⟩ fe = true := Line.hears_of_mode listens.mode ..
    refine ⟨fun hl hb => ?_, ?_, fun k hl => ?_⟩
    · have long := (hearing.classify_held ha byte).trans (congrArg some (PartialFrame.classOf_tooLong hl hb))
      refine congrArg Host.Outcome.next ((characterEvent_of_class (hears false) long).trans ?_)
      rw [takeCharacter_tooLong ha, handUp_of_active (by rw [State.line_onLine_same]; exact hm)]
      refine spoils _ _ _ _ hx rfl ?_ (.inl (abandons ..))
      simp only [Line.received, active]
      rfl
    · refine congrArg Host.Outcome.next ((characterEvent_of_class (hears true) (hearing.classify_begins byte)).trans ?_)
      rw [takeCharacter_newAddress ha, handUp_of_active (by rw [State.line_onLine_same]; exact hm)]
      refine spoils _ _ _ _ hx rfl ?_ (.inl (abandons ..))
      simp only [Line.received, active]
      rfl
    · intro h hj
      rw [exec_frameReceived_of_receive hm hd hw hx hp ha hl]
      refine congrArg _ (spoils _ _ _ _ hx rfl ?_ hj)
      simp only [Line.received, active]
      have counted (c : LineCounters) : ({ c with
            goodFrames := if h.crcMatches ∧ h.framing = false then min (c.goodFrames + 1) 65535 else c.goodFrames
            checkErrors := if h.crcMatches then c.checkErrors else min (c.checkErrors + 1) 65535 } : LineCounters)
          = { c with
            goodFrames := up (h.crcMatches && !h.framing) c.goodFrames
            checkErrors := up (!h.crcMatches) c.checkErrors } := by
        cases h.crcMatches <;> cases h.framing <;> rfl
      exact congrArg (fun c => ({ s.line l with awaitsMark := fe, assembler := none, counters := c } : Line))
        (counted { (s.line l).counters with framingErrors := up fe (s.line l).counters.framingErrors })

end Sys2Proof.Machine
end

section
/-! SUPPORT. The row that a character's samples name (R22, R28). -/

namespace Sys2Proof.Machine

/-! ### What the receiver makes of its samples -/

/-- R28: ten samples, of the data bits, the address mark and the stop bit. -/
theorem receivedCharacter_samples (byte : Byte) (mark fe : Bool) (later : List Bool) :
    receivedCharacter ((List.range 8).map (fun i => byte.getLsbD i) ++ mark :: (!fe) :: later) = (⟨byte, mark⟩, fe) := by
  have data : (List.range 8).map (fun i => byte.getLsbD i) = dataBits byte := rfl
  rw [receivedCharacter, data, List.take_append_of_le_length (by simp), List.take_of_length_le (by simp),
    dataByte_dataBits, List.getD_append_right _ _ _ _ (by simp), List.getD_append_right _ _ _ _ (by simp)]
  simp

/-- R22, R28: the levels of a character give it back. -/
theorem LineCharacter.received_levels (c : LineCharacter) {stopBits : Nat} (h : 0 < stopBits) :
    receivedCharacter ((c.levels stopBits).drop 1) = (c, false) := by
  obtain ⟨n, rfl⟩ : ∃ n, stopBits = n + 1 := ⟨stopBits - 1, by omega⟩
  exact receivedCharacter_samples c.byte c.addressMark false (List.replicate n true)

/-! ### The row of a class -/

/-- R28, R34 to R37: the row on a character of a class. -/
def CharacterClass.row (l : LineId) (byte : Byte) (mark fe : Bool) : CharacterClass → Instr
  | .stray => .strayCharacter l byte mark fe
  | .begins => .addressCharacterReceived l byte fe
  | .added => .frameCharacterReceived l byte fe
  | .tooLong => .lengthAbandon l byte fe
  | .completes => .frameReceived l byte fe

section
variable {ln : Line} {l : LineId} {samples : List Bool} {byte : Byte} {mark fe : Bool} {k : CharacterClass}

theorem Line.receipt_of_deaf (h : ln.seeksEdge = false) (l : LineId) (samples : List Bool) :
    ln.receipt l samples = none := by
  simp [Line.receipt, Line.classify_of_not_seeking h]

theorem Line.receipt_of_class (hr : receivedCharacter samples = (⟨byte, mark⟩, fe))
    (hk : ln.classify byte mark = some k) : ln.receipt l samples = some (k.row l byte mark fe) := by
  simp only [Line.receipt, hr, hk]
  cases k <;> rfl

/-- R26, R28: an enabled receiver that does not wait for mark seeks edges. -/
theorem Line.seeksEdge_of_not_deaf
    (h : ¬(ln.mode = .off ∨ (ln.mode = .active ∧ ln.driver = true) ∨ (ln.mode ≠ .test ∧ ln.awaitsMark = true))) :
    ln.seeksEdge = true := by
  unfold Line.seeksEdge Line.receiverEnabled
  cases hm : ln.mode <;> simp_all

/-- R34, R37: the class of a character that the receiver hears. -/
def Line.classOf (ln : Line) (byte : Byte) (mark : Bool) : CharacterClass :=
  if mark then .begins
  else
    match ln.assembler with
    | none => .stray
    | some p => p.classOf byte

theorem Line.Hearing.classify_eq (h : ln.Hearing) (byte : Byte) (mark : Bool) :
    ln.classify byte mark = some (ln.classOf byte mark) := by
  cases mark with
  | true => exact h.classify_begins byte
  | false =>
    unfold Line.classOf
    cases ha : ln.assembler with
    | none => exact h.classify_stray ha byte
    | some p => exact h.classify_held ha byte

/-- The row of a character is the event of its class. -/
theorem exec_row_classOf (ln : Line) (l : LineId) (byte : Byte) (mark fe : Bool) (s : State) :
    exec ((ln.classOf byte mark).row l byte mark fe) s
      = .next (characterEvent l (ln.classOf byte mark) byte mark fe s) := by
  cases mark with
  | true => rfl
  | false =>
    unfold Line.classOf PartialFrame.classOf
    cases ln.assembler with
    | none => rfl
    | some p =>
      simp only [Bool.false_eq_true, if_false]
      split
      · rfl
      · split <;> rfl

end

end Sys2Proof.Machine
end
section
/-! PROOF. Line frames received whole (R31, R34 to R36), and captured in MONITOR (R132). -/

namespace Sys2Proof.Machine

/-! ### A frame built as R31 says, character by character -/

section
variable {address : Nat} {control : Byte} {payload : List Byte} {k : Nat} {timer : Option Nat}

/-- R34 to R36: the class of character k of a frame, after those before it. -/
theorem lineFrame_classOf (hp : payload.length ≤ 32) (h0 : 0 < k) {byte : Byte}
    (hb : (lineFrame address control payload)[k]? = some byte) :
    (⟨(lineFrame address control payload).take k, false, timer⟩ : PartialFrame).classOf byte
      = if k + 1 = (lineFrame address control payload).length then .completes else .added := by
  have length := lineFrame_length address control payload
  have inside : k < (lineFrame address control payload).length := (List.getElem?_eq_some_iff.1 hb).1
  have taken : ((lineFrame address control payload).take k).length = k := List.length_take_of_le (by omega)
  have third : (lineFrame address control payload)[2]? = some (b8 payload.length) := rfl
  by_cases h3 : 3 ≤ k
  · have held : ((lineFrame address control payload).take k).getD 2 0 = b8 payload.length := by
      rw [List.getD_eq_getElem?_getD, List.getElem?_take_of_lt (by omega), third]
      rfl
    have count : (b8 payload.length).toNat = payload.length := b8_toNat_of_lt (by omega)
    by_cases hl : k + 1 = (lineFrame address control payload).length
    · rw [if_pos hl, PartialFrame.classOf_completes (by rw [taken, held, count]; omega)]
    · rw [if_neg hl, PartialFrame.classOf_added (.inr (.inr (by rw [taken, held, count]; omega)))]
  · rw [if_neg (by omega)]
    refine PartialFrame.classOf_added ?_
    rw [taken]
    by_cases h2 : k = 2
    · subst h2
      rw [third] at hb
      cases hb
      exact .inr (.inl ⟨rfl, by rw [b8_toNat_of_lt (by omega)]; exact hp⟩)
    · exact .inl (by omega)

end

/-! ### A run over a list -/

/-- A fold in which each element brings one of a sequence of states to the next. -/
theorem foldlM_states {α β : Type} {g : β → α → Option β} (u : Nat → β) (xs : List α)
    (h : ∀ k x, xs[k]? = some x → g (u k) x = some (u (k + 1))) : xs.foldlM g (u 0) = some (u xs.length) := by
  induction xs generalizing u with
  | nil => rfl
  | cons x xs ih =>
    rw [List.foldlM_cons, h 0 x rfl]
    exact ih (fun k => u (k + 1)) fun k y hy => h (k + 1) y (by simpa using hy)

/-! ### Reception in MONITOR -/

section
variable {s : State} {l : LineId} {frame : List Byte} {k : Nat} {byte : Byte}

/-- R34, R35: the line has received the characters of a frame without an error. -/
def Line.collected (chars : List Byte) (ln : Line) : Line :=
  { ln with awaitsMark := false, assembler := some ⟨chars, false, some ln.config.intercharacter⟩ }

/-- R132: the report of a frame that a line in MONITOR has received without an error. -/
def frameCaptured (l : LineId) (frame : List Byte) (s : State) : State :=
  { (s.onLine l fun ln =>
      { ln with
        awaitsMark := false
        counters := { ln.counters with goodFrames := min (ln.counters.goodFrames + 1) 65535 } }) with
    queue := { s.queue with
      entries := s.queue.entries ++ [⟨s.queue.seqCounter, captureReport l ⟨frame, false, none⟩, false⟩]
      seqCounter := s.queue.seqCounter + 1 } }

/-- R132, R34 to R36: the state in which the first k characters of a frame have been received. -/
def receiving (l : LineId) (frame : List Byte) (s : State) (k : Nat) : State :=
  if k = 0 then s
  else if k < frame.length then s.onLine l (Line.collected (frame.take k))
  else frameCaptured l frame s

theorem receiving_config (hk : k < frame.length) :
    ((receiving l frame s k).line l).config = (s.line l).config := by
  unfold receiving
  rw [if_pos hk]
  split
  · rfl
  · rw [State.line_onLine_same]
    rfl

/-- R132: a line in MONITOR that seeks a frame, with space in the queue. -/
structure Monitors (l : LineId) (s : State) : Prop where
  mode : (s.line l).mode = .monitor
  awaitsMark : (s.line l).awaitsMark = false
  assembler : (s.line l).assembler = none
  exchange : (s.line l).exchange = none
  space : s.queue.entries.length + s.queue.reservations < 128

theorem Monitors.hearing_collected (h : Monitors l s) (chars : List Byte) :
    (((s.onLine l (Line.collected chars)).line l)).Hearing := by
  rw [State.line_onLine_same]
  exact Line.hearing_of_monitor (ln := Line.collected chars (s.line l)) h.mode rfl

theorem Monitors.hears_collected (h : Monitors l s) (chars : List Byte) (c : LineCharacter) (fe : Bool) :
    ((s.onLine l (Line.collected chars)).line l).hears c fe = true := by
  refine Line.hears_of_mode ?_ c fe
  rw [State.line_onLine_same]
  exact ne_of_eq_of_ne h.mode (by decide)

/-- R34: the address character begins the frame. -/
theorem Monitors.begins (h : Monitors l s) (byte : Byte) :
    takeCharacter l .begins byte false s = s.onLine l (Line.collected [byte]) := by
  rw [takeCharacter_begins h.assembler]
  refine State.onLine_congr ?_
  simp [Line.received, Line.holding, Line.collected, h.exchange,
    Line.testHeard_of_mode (ln := s.line l) (by simp [h.mode])]

/-- R35: a character joins it. -/
theorem Monitors.added (h : Monitors l s) (chars : List Byte) (byte : Byte) :
    takeCharacter l .added byte false (s.onLine l (Line.collected chars))
      = s.onLine l (Line.collected (chars ++ [byte])) := by
  rw [takeCharacter_added (p := ⟨chars, false, some (s.line l).config.intercharacter⟩)
    (by rw [State.line_onLine_same]; rfl), State.onLine_onLine]
  refine State.onLine_congr ?_
  have test : (Line.collected chars (s.line l)).testHeard = (s.line l).test :=
    Line.testHeard_of_mode (ln := Line.collected chars (s.line l)) (ne_of_eq_of_ne h.mode (by decide))
  simp only [Line.received, test]
  rfl

/-- R36, R132: the last completes it, and it is captured. -/
theorem Monitors.completes (h : Monitors l s) (chars : List Byte) (byte : Byte)
    (hc : (⟨chars ++ [byte], false, none⟩ : HandedUp).crcMatches = true) :
    takeCharacter l .completes byte false (s.onLine l (Line.collected chars)) = frameCaptured l (chars ++ [byte]) s := by
  have test : (Line.collected chars (s.line l)).testHeard = (s.line l).test :=
    Line.testHeard_of_mode (ln := Line.collected chars (s.line l)) (ne_of_eq_of_ne h.mode (by decide))
  have up : (s.onLine l (Line.collected chars)).onLine l
      (fun ln => (ln.received false).frameEnded ⟨chars ++ [byte], false, none⟩)
        = s.onLine l fun ln =>
          { ln with
            awaitsMark := false
            counters := { ln.counters with goodFrames := min (ln.counters.goodFrames + 1) 65535 } } := by
    rw [State.onLine_onLine]
    refine State.onLine_congr ?_
    simp only [Line.received, Line.frameEnded, test, hc, and_self, if_true, ← h.assembler]
    rfl
  rw [takeCharacter_completes (p := ⟨chars, false, some (s.line l).config.intercharacter⟩)
    (by rw [State.line_onLine_same]; rfl)]
  simp only [Bool.or_self, up]
  rw [handUp_of_monitor (by rw [State.line_onLine_same]; exact h.mode),
    captureFrame_of_space (by rw [State.onLine_queue]; exact h.space), State.onLine_queue]
  rfl

/-- R34 to R36: character k of a frame brings the line from the first k characters to the first k + 1. -/
theorem Monitors.receives {address : Nat} {control : Byte} {payload : List Byte} (h : Monitors l s)
    (hp : payload.length ≤ 32) (hb : (lineFrame address control payload)[k]? = some byte) :
    let frame := lineFrame address control payload
    let t := receiving l frame s k
    let row : Instr :=
      if k = 0 then .addressCharacterReceived l byte false
      else if k + 1 = frame.length then .frameReceived l byte false
      else .frameCharacterReceived l byte false
    (∀ samples, receivedCharacter samples = (⟨byte, k == 0⟩, false) → (t.line l).receipt l samples = some row)
      ∧ exec row t = .next (receiving l frame s (k + 1)) := by
  intro frame t row
  have length : 5 ≤ frame.length := by simp [frame, lineFrame_length]
  have inside : k < frame.length := (List.getElem?_eq_some_iff.1 hb).1
  have joined : frame.take k ++ [byte] = frame.take (k + 1) := by
    rw [List.take_add_one, hb]
    rfl
  by_cases h0 : k = 0
  · subst h0
    have hearing := Line.hearing_of_monitor h.mode h.awaitsMark
    have begins := hearing.classify_begins byte
    refine ⟨fun samples hs => Line.receipt_of_class hs begins, congrArg Host.Outcome.next ?_⟩
    refine (characterEvent_of_class (Line.hears_of_mode (by simp [h.mode]) ..) begins).trans ?_
    show takeCharacter l .begins byte false s = _
    rw [h.begins, receiving, if_neg (by omega), if_pos (by omega), ← joined]
    rfl
  · have state : t = s.onLine l (Line.collected (frame.take k)) := (if_neg h0).trans (if_pos inside)
    have class' := ((h.hearing_collected (frame.take k)).classify_held (byte := byte)
      (p := ⟨frame.take k, false, some (s.line l).config.intercharacter⟩) (by rw [State.line_onLine_same]; rfl)).trans
        (congrArg some (lineFrame_classOf hp (by omega) hb))
    have notFirst : (k == 0) = false := by simp [h0]
    rw [state, notFirst]
    by_cases hl : k + 1 = frame.length
    · rw [if_pos hl] at class'
      have hrow : row = .frameReceived l byte false := (if_neg h0).trans (if_pos hl)
      rw [hrow]
      refine ⟨fun samples hs => Line.receipt_of_class hs class', congrArg Host.Outcome.next ?_⟩
      refine (characterEvent_of_class (h.hears_collected ..) class').trans ?_
      have whole : frame.take (k + 1) = frame := List.take_of_length_le (by omega)
      rw [h.completes _ _ (by rw [joined, whole]; exact handedFrame_crcMatches hp), joined, whole, receiving,
        if_neg (by omega), if_neg (by omega)]
    · rw [if_neg hl] at class'
      have hrow : row = .frameCharacterReceived l byte false := (if_neg h0).trans (if_neg hl)
      rw [hrow]
      refine ⟨fun samples hs => Line.receipt_of_class hs class', congrArg Host.Outcome.next ?_⟩
      refine (characterEvent_of_class (h.hears_collected ..) class').trans ?_
      rw [h.added, joined, receiving, if_neg (by omega), if_pos (by omega)]

end

/-! ### The obligation -/

/-- R132, R188: the capture report of a frame that was built. -/
theorem captureReport_handedFrame {address code : Nat} {toggle resync : Bool} {payload : List Byte} (l : LineId)
    (hc : code < 16) (hp : payload.length ≤ 32) :
    captureReport l ⟨lineFrame address (controlByte code toggle resync) payload, false, none⟩
      = .capture l (b8 address) (some code) (some toggle) (some payload.length) payload false false false := by
  have read := controlByte_read hc toggle resync
  have length : 2 < (lineFrame address (controlByte code toggle resync) payload).length := by
    rw [lineFrame_length]
    omega
  show captureReport l (handedFrame address (controlByte code toggle resync) payload) = _
  rw [captureReport, handedFrame_address, handedFrame_kindCode, handedFrame_toggle, handedFrame_length hp,
    handedFrame_payload hp, handedFrame_crcMatches hp, read.1, read.2]
  simp only [handedFrame, length, (by omega : 1 < (lineFrame address (controlByte code toggle resync) payload).length)]
  rfl

/-- Settles O40. -/
theorem lineFramesAreCapturedWhole : Obligations.LineFramesAreCapturedWhole := by
  unfold Obligations.LineFramesAreCapturedWhole
  intro ran
  have ran_eq {c : Instr} {t u : State} (h : exec c t = .next u) : ran c t = some u := by
    simp only [ran, h]
  refine ⟨fun c config hs => ?_, fun l ln byte mark fe => ?_,
    fun s l address code toggle resync payload front first last hm hw ha hx haddr hcode hp hspace => ?_⟩
  · exact ⟨LineCharacter.levels_length .., rfl, rfl, c.received_levels (by omega)⟩
  · intro samples deaf closed
    have read : receivedCharacter samples = (⟨byte, mark⟩, fe) := receivedCharacter_samples byte mark fe []
    refine ⟨fun h => Line.receipt_of_deaf ?_ l samples, fun h hclosed => ?_, fun h hopen => ?_⟩
    · rcases h with h | ⟨h, hd⟩ | ⟨h, hw⟩
      · simp [Line.seeksEdge, Line.receiverEnabled, h]
      · simp [Line.seeksEdge, Line.receiverEnabled, h, hd]
      · exact Line.seeksEdge_of_awaitsMark hw h
    · have active := hclosed.1
      have driver : ln.driver = false := by
        by_contra hd
        exact h (.inr (.inl ⟨active, by simpa using hd⟩))
      have mark' : ln.awaitsMark = false := by
        by_contra hw
        exact h (.inr (.inr ⟨by simp [active], by simpa using hw⟩))
      have shut : ln.windowOpen = false := by
        cases hx : ln.exchange with
        | none => simp [Line.windowOpen, hx]
        | some x => simp [Line.windowOpen, hx, hclosed.2 x hx]
      exact Line.receipt_of_class read ((Line.Listens.of_active active driver mark').classify_of_shut active shut ..)
    · have hearing : ln.Hearing := by
        refine ⟨Line.seeksEdge_of_not_deaf h, fun active => ?_⟩
        by_contra shut
        refine hopen ⟨active, fun x hx => ?_⟩
        have := mt (Line.windowOpen_eq hx).2 shut
        tauto
      refine ⟨fun hmark => ?_, fun hmark ha => ?_, fun p hmark ha => ?_⟩
      · subst hmark
        exact Line.receipt_of_class read (hearing.classify_begins byte)
      · subst hmark
        exact Line.receipt_of_class read (hearing.classify_stray ha byte)
      · subst hmark
        rw [Line.receipt_of_class read (hearing.classify_held ha byte)]
        refine congrArg some ?_
        unfold PartialFrame.classOf
        split
        · rfl
        · split <;> rfl
  · intro frame hf captured
    have monitors : Monitors l s := ⟨hm, hw, ha, hx, hspace⟩
    have length : frame.length = payload.length + 5 := lineFrame_length ..
    have front_length : front.length + 2 = frame.length := by rw [hf]; simp
    have whole : receiving l frame s frame.length = captured := by
      rw [receiving, if_neg (by omega), if_neg (Nat.lt_irrefl _), frameCaptured]
      simp only [frame, captureReport_handedFrame l hcode hp]
      rfl
    let row (k : Nat) (b : Byte) : Instr :=
      if k = 0 then .addressCharacterReceived l b false
      else if k + 1 = frame.length then .frameReceived l b false
      else .frameCharacterReceived l b false
    have named (k : Nat) (b : Byte) (hb : frame[k]? = some b) (samples : List Bool)
        (hs : receivedCharacter samples = (⟨b, k == 0⟩, false)) :
        ((receiving l frame s k).line l).receipt l samples = some (row k b) := (monitors.receives hp hb).1 samples hs
    have runs (k : Nat) (b : Byte) (hb : frame[k]? = some b) :
        ran (row k b) (receiving l frame s k) = some (receiving l frame s (k + 1)) :=
      ran_eq (monitors.receives hp hb).2
    have added {k : Nat} {b : Byte} (h0 : 0 < k) (hk : k + 1 < frame.length) :
        row k b = .frameCharacterReceived l b false := (if_neg (by omega)).trans (if_neg (by omega))
    have completes {k : Nat} {b : Byte} (h0 : 0 < k) (hk : k + 1 = frame.length) :
        row k b = .frameReceived l b false := (if_neg (by omega)).trans (if_pos hk)
    refine ⟨?_, fun hs => ?_⟩
    · have begins : ran (.addressCharacterReceived l first false) s = some (receiving l frame s 1) :=
        runs 0 first (by rw [hf]; rfl)
      have joins : front.foldlM (fun t b => ran (.frameCharacterReceived l b false) t) (receiving l frame s 1)
          = some (receiving l frame s (front.length + 1)) := by
        refine foldlM_states (fun k => receiving l frame s (k + 1)) front fun k b hb => ?_
        have inside := (List.getElem?_eq_some_iff.1 hb).1
        have joined := runs (k + 1) b (by rw [hf]; simpa [List.getElem?_append_left inside] using hb)
        rwa [added (by omega) (by omega)] at joined
      have ends : ran (.frameReceived l last false) (receiving l frame s (front.length + 1)) = some captured := by
        have ended := runs (front.length + 1) last (by rw [hf]; simp)
        rwa [completes (by omega) (by omega), front_length, whole] at ended
      rw [begins, Option.bind_eq_bind, Option.bind_some, joins]
      exact ends
    · have taken := foldlM_states (g := fun t k =>
          (t.line l).receipt l (((⟨frame.getD k 0, k == 0⟩ : LineCharacter).levels (t.line l).config.stopBits).drop 1)
            >>= fun c => ran c t) (receiving l frame s) (List.range frame.length) fun k j hj => ?_
      · rwa [List.length_range, whole] at taken
      · obtain ⟨inside, hk⟩ := List.getElem?_eq_some_iff.1 hj
        rw [List.length_range] at inside
        rw [List.getElem_range] at hk
        subst hk
        have hb : frame[k]? = some (frame.getD k 0) := by
          rw [List.getD_eq_getElem?_getD, List.getElem?_eq_getElem inside]
          rfl
        have stops : 0 < ((receiving l frame s k).line l).config.stopBits := by
          rw [receiving_config inside]
          omega
        simp only [named k _ hb _ (LineCharacter.received_levels ⟨frame.getD k 0, k == 0⟩ stops), Option.bind_eq_bind,
          Option.bind_some]
        exact runs k _ hb

end Sys2Proof.Machine
end

section
/-! PROOF. A line test past the end of its frame (R140): why the statement about line tests fails. -/

namespace Sys2Proof.Machine

/-- A line test in SENDING whose count of characters sent is 37, one more than stands before the last character of a
frame. No step leads to it, but nothing in the statement shuts it out. -/
def overrunTest : LineTest :=
  { count := 1, index := 0, framesSent := 0, framesMatched := 0, firstMismatch := none, phase := .sending
    charsSent := 37, delivered := false, handed := none, timer := none }

/-- Line A in TEST with that test, on the state after reset. -/
def overrun : State := State.reset.onLine .a fun ln => { ln with mode := .test, test := some overrunTest }

theorem overrun_line :
    overrun.line .a = { State.reset.line .a with mode := .test, test := some overrunTest } := State.line_onLine_same ..

/-- R140: the frame has 37 characters, so none stands at place 37. -/
theorem overrun_frame : (testFrame overrunTest.index)[overrunTest.charsSent]? = none :=
  List.getElem?_eq_none (by simp [overrunTest])

/-- The model's internal loop carries the byte 0 there all the same. -/
theorem overrun_loopDelivery : (overrun.line .a).loopDelivery = some ⟨0#8, false⟩ := by
  rw [Line.loopDelivery_of_sending (t := overrunTest) (by rw [overrun_line]) (by rw [overrun_line]; rfl)
    (by rw [overrun_line]; rfl) (by rw [overrun_line]) rfl rfl, frameCharacter, List.getD_eq_getElem?_getD, overrun_frame]
  rfl

/-- So the receiver takes it as stray, and counts it. -/
theorem exec_strayCharacter_overrun :
    exec (.strayCharacter .a 0#8 false false) overrun = .next (overrun.onLine .a (Line.strayed false)) := by
  have hearing : (overrun.line .a).Hearing := Line.hearing_of_test (by rw [overrun_line])
  have seeks : (overrun.line .a).assembler = none := by rw [overrun_line]; rfl
  exact congrArg Host.Outcome.next ((characterEvent_of_class (Line.hears_of_delivery overrun_loopDelivery)
    (hearing.classify_stray seeks 0#8)).trans (takeCharacter_stray ..))

theorem strayed_overrun_ne : overrun.onLine .a (Line.strayed false) ≠ overrun := by
  intro same
  have counts := congrArg (fun s => (s.line .a).counters.strayCharacters) same
  simp only [State.line_onLine_same, overrun_line] at counts
  exact absurd counts (by decide)

/-- Refutes O52: the clause that any other received character leaves the state of TEST as it is bounds the characters
sent nowhere, as other clauses do. In `overrun` they are 37, where the frame has no character, while the loop of the
model delivers the byte 0: the receiver takes it as stray and counts it. -/
theorem not_lineTestsRun : ¬Obligations.LineTestsRun := by
  intro h
  obtain ⟨-, -, -, -, -, -, -, -, others, -⟩ :=
    h overrun .a overrunTest (by rw [overrun_line]; rfl) (by rw [overrun_line]; rfl) (by rw [overrun_line])
  have ignored := others 0#8 false false (by rw [overrun_line])
    (fun ⟨_, _, hb, _⟩ => by rw [← testFrame_eq, overrun_frame] at hb; cases hb) _ (List.mem_cons_self ..)
  rw [exec_strayCharacter_overrun] at ignored
  exact strayed_overrun_ne (Host.Outcome.next.inj ignored)

end Sys2Proof.Machine
end

section
/-! PROOF. The frames that the host transmitter starts, and their levels on HTXD (R162, R173, R177). -/

namespace Sys2Proof.Machine

/-! ### The levels of a frame (R162) -/

section
variable {α β : Type} {n : Nat} {f : α → List β}

/-- Pieces of one length set end to end: place i stands in piece i / n, at i % n. -/
theorem getElem?_flatMap_of_length (hf : ∀ x, (f x).length = n) (hn : 0 < n) {xs : List α} {i : Nat} {x : α}
    (hx : xs[i / n]? = some x) : (xs.flatMap f)[i]? = (f x)[i % n]? := by
  induction xs generalizing i with
  | nil => simp at hx
  | cons y ys ih =>
    rw [List.flatMap_cons]
    by_cases hi : i < n
    · rw [Nat.div_eq_of_lt hi, List.getElem?_cons_zero, Option.some.injEq] at hx
      rw [List.getElem?_append_left (by rwa [hf]), Nat.mod_eq_of_lt hi, hx]
    · obtain ⟨j, rfl⟩ : ∃ j, i = j + n := ⟨i - n, by omega⟩
      rw [Nat.add_div_right j hn, List.getElem?_cons_succ] at hx
      rw [List.getElem?_append_right (by rw [hf]; omega), hf, Nat.add_sub_cancel, ih hx, Nat.add_mod_right]

theorem length_flatMap_of_length (hf : ∀ x, (f x).length = n) (xs : List α) :
    (xs.flatMap f).length = n * xs.length := by
  induction xs with
  | nil => simp
  | cons y ys ih => rw [List.flatMap_cons, List.length_append, hf, ih, List.length_cons, Nat.mul_succ, Nat.add_comm]

end

section
variable {k : Link} {f : HostFrame} {bitTime : Nat}

/-- R162: after its last character HTXD is at mark. -/
theorem Link.txPin_of_sent (hs : k.sending = some f) (h : 10 * f.bytes.length ≤ bitTime) : k.txPin bitTime = true := by
  have length := length_flatMap_of_length hostCharacterLevels_length f.bytes
  have outside : (f.bytes.flatMap hostCharacterLevels)[bitTime]? = none :=
    List.getElem?_eq_none (by rw [length]; exact h)
  simp only [Link.txPin, hs, HostFrame.levels, List.getD_eq_getElem?_getD, outside]
  rfl

/-- R162: the characters of a frame stand back to back. -/
theorem Link.txPin_of_character (hs : k.sending = some f) {byte : Byte} (hb : f.bytes[bitTime / 10]? = some byte) :
    k.txPin bitTime = (hostCharacterLevels byte).getD (bitTime % 10) true := by
  simp only [Link.txPin, hs, HostFrame.levels, List.getD_eq_getElem?_getD,
    getElem?_flatMap_of_length hostCharacterLevels_length (by decide) hb]

end

/-! ### The entry that is next (R149, R173) -/

section
variable {s : State} {old new : List Entry} {e : Entry}

/-- R148: with distinct numbers, an entry before or after e has another number than e. -/
theorem seq_ne_of_nodup (hd : ((old ++ e :: new).map (·.seq)).Nodup) :
    (∀ x ∈ old, x.seq ≠ e.seq) ∧ ∀ x ∈ new, x.seq ≠ e.seq := by
  simp only [List.map_append, List.map_cons, List.nodup_append, List.nodup_cons, List.mem_map, List.mem_cons] at hd
  obtain ⟨-, ⟨later, -⟩, earlier⟩ := hd
  refine ⟨fun x hx h => ?_, fun x hx h => later ⟨x, hx, h⟩⟩
  exact earlier x.seq ⟨x, hx, rfl⟩ e.seq (.inl rfl) h

theorem find?_seq_of_nodup (hd : ((old ++ e :: new).map (·.seq)).Nodup) :
    (old ++ e :: new).find? (·.seq == e.seq) = some e := by
  have none : old.find? (·.seq == e.seq) = none :=
    List.find?_eq_none.2 fun x hx => by simpa using (seq_ne_of_nodup hd).1 x hx
  simp [List.find?_append, none]

theorem find?_unsent (ho : ∀ x ∈ old, x.sent = true) (he : e.sent = false) :
    (old ++ e :: new).find? (!·.sent) = some e := by
  have none : old.find? (!·.sent) = none := List.find?_eq_none.2 fun x hx => by simp [ho x hx]
  simp [List.find?_append, none, he]

/-- R149: only the entry's own sent mark is set. -/
theorem map_sent_of_nodup (hd : ((old ++ e :: new).map (·.seq)).Nodup) :
    ((old ++ e :: new).map fun x => if x.seq = e.seq then { x with sent := true } else x)
      = old ++ { e with sent := true } :: new := by
  obtain ⟨earlier, later⟩ := seq_ne_of_nodup hd
  have kept (xs : List Entry) (h : ∀ x ∈ xs, x.seq ≠ e.seq) :
      xs.map (fun x => if x.seq = e.seq then { x with sent := true } else x) = xs := by
    conv_rhs => rw [← List.map_id xs]
    exact List.map_congr_left fun x hx => if_neg (h x hx)
  rw [List.map_append, List.map_cons, kept old earlier, kept new later, if_pos rfl]

/-- R173: the resend position after e. -/
theorem positionAfter_of_nodup (hd : ((old ++ e :: new).map (·.seq)).Nodup) :
    positionAfter e.seq (old ++ e :: new) = new.head?.bind fun f => if f.sent then some f.seq else none := by
  rw [positionAfter, dropThrough_append rfl (seq_ne_of_nodup hd).1]
  cases new <;> rfl

/-! ### What the transmitter starts (R177) -/

theorem startHostFrame_of_response (hc : s.link.ctsLow = true) (hn : s.link.sending = none) {q : Response}
    {more : List Response} (hr : s.link.responses = q :: more) :
    startHostFrame s =
      s.onLink fun k =>
        { k with
          responses := more
          sending := some ⟨if q.restarts then .restartResponse else .response, responseFrame q⟩ } := by
  simp only [startHostFrame, hc, hn, hr, Option.isNone_none, and_self, if_true]

theorem startHostFrame_of_report (hc : s.link.ctsLow = true) (hn : s.link.sending = none) (hr : s.link.responses = [])
    (he : nextReport s = some e) : startHostFrame s = startReport e s := by
  simp only [startHostFrame, hc, hn, hr, he, Option.isNone_none, and_self, if_true]

theorem startHostFrame_of_hello (hc : s.link.ctsLow = true) (hn : s.link.sending = none) (hr : s.link.responses = [])
    (he : nextReport s = none) :
    startHostFrame s =
      if s.link.helloWaiting then
        s.onLink fun k => { k with helloWaiting := false, sending := some ⟨.hello, helloFrame k.helloCause⟩ }
      else s := by
  simp only [startHostFrame, hc, hn, hr, he, Option.isNone_none, and_self, if_true]

theorem nextReport_of_run {p : Half} (ho : s.link.session.state = .opened) (hr : s.link.session.run = some p) :
    nextReport s = s.queue.entries.find? (·.seq == p) := by
  simp only [nextReport, ho, hr, if_true]

theorem nextReport_of_window (ho : s.link.session.state = .opened) (hr : s.link.session.run = none) :
    nextReport s =
      if (s.queue.entries.filter (·.sent)).length < s.link.session.window then s.queue.entries.find? (!·.sent)
      else none := by
  simp only [nextReport, ho, hr, if_true]
  rfl

/-- R177: nothing is next outside OPEN, and with no run when all is sent or the window is full. -/
theorem nextReport_of_nothing
    (h : s.link.session.state ≠ .opened
      ∨ (s.link.session.run = none
          ∧ ((∀ x ∈ s.queue.entries, x.sent = true)
              ∨ s.link.session.window ≤ (s.queue.entries.filter (·.sent)).length))) : nextReport s = none := by
  by_cases ho : s.link.session.state = .opened
  · obtain ⟨hr, h⟩ := h.resolve_left (not_not.2 ho)
    rw [nextReport_of_window ho hr]
    rcases h with h | h
    · split
      · exact List.find?_eq_none.2 fun x hx => by simp [h x hx]
      · rfl
    · exact if_neg (Nat.not_lt.2 h)
  · exact if_neg ho

end

/-- Settles O31. -/
theorem hostFramesStartInTheirOrder : Obligations.HostFramesStartInTheirOrder := by
  unfold Obligations.HostFramesStartInTheirOrder
  intro bit line contents
  have lines (l : LineId) : b8 (lineCode l) = line l := by cases l <;> rfl
  have flags (b : Bool) : b8 (flagBit b 0) = if b then 1 else 0 := by cases b <;> rfl
  have written (r : Report) : r.bytes = contents r := by
    cases r with
    | stationData n data => rfl
    | commandDone tag station outcome transmitted attempts failure reply =>
      simp only [Report.bytes, contents, le16_toNat, flags]
      cases station <;> rfl
    | stationState n state current changes cause =>
      simp only [Report.bytes, contents, lines]
      rfl
    | lineState l mode stuck cause =>
      simp only [Report.bytes, contents, lines, flags]
      rfl
    | scanDone l status responders =>
      simp only [Report.bytes, contents, lines]
      rfl
    | testDone l status sent matched mismatch =>
      simp only [Report.bytes, contents, lines]
      cases mismatch <;> rfl
    | capture l address kind toggle length payload framing check abandoned =>
      simp only [Report.bytes, contents, lines, flags]
      cases toggle with
      | none => rfl
      | some toggle => cases toggle <;> rfl
  have reports (e : Entry) : reportFrame e = hostFrame 0x82#8 0 (lowByte e.seq :: highByte e.seq :: contents e.report) := by
    rw [reportFrame, le16_toNat, written]
    rfl
  refine ⟨fun s bitTime => ⟨fun hs => ?_, fun f hs => ⟨Link.txPin_of_sent hs, fun byte hb => ?_⟩⟩, fun s h => ?_,
    fun s h => ?_, fun s c hc hs => ?_⟩
  · simp only [Link.txPin, hs]
  · rw [Link.txPin_of_character hs hb]
    rfl
  · exact congrArg Host.Outcome.next (startHostFrame_of_not h)
  · exact congrArg Host.Outcome.next (startHostFrame_of_not (.inr h))
  · intro low
    -- CTS_FALL chooses on the state with CTS low, and so does HOST_TRANSMIT_START, whose CTS is low already.
    let t : State := { s with link := low }
    have chooses : exec c s = .next (startHostFrame t) := by
      rcases hc with ⟨rfl, hl⟩ | rfl
      · have same : t = s := by
          show ({ s with link := { s.link with ctsLow := true } } : State) = s
          rw [← hl]
        rw [same]
        rfl
      · rfl
    rw [chooses]
    refine ⟨fun q more hr => ?_, fun old e new p hr ho hd hq hrun hp => ?_,
      fun old e new hr ho hd hq hrun hold he hw => ?_, fun hr h => ?_⟩
    · exact congrArg _ (startHostFrame_of_response (s := t) rfl hs hr)
    · subst hp
      have next : nextReport t = some e := by
        rw [nextReport_of_run (s := t) ho hrun]
        show s.queue.entries.find? _ = _
        rw [hq] at hd ⊢
        exact find?_seq_of_nodup hd
      rw [startHostFrame_of_report (s := t) rfl hs hr next, startReport_eq, reports]
      rw [hq] at hd
      rw [show t.queue.entries = old ++ e :: new from hq, map_sent_of_nodup hd, positionAfter_of_nodup hd,
        show t.link.session.run = some e.seq from hrun]
      cases new <;> rfl
    · have next : nextReport t = some e := by
        rw [nextReport_of_window (s := t) ho hrun]
        refine (if_pos hw).trans ?_
        show s.queue.entries.find? _ = _
        rw [hq]
        exact find?_unsent hold he
      rw [startHostFrame_of_report (s := t) rfl hs hr next, startReport_eq, reports]
      rw [hq] at hd
      rw [show t.queue.entries = old ++ e :: new from hq, map_sent_of_nodup hd,
        show t.link.session.run = none from hrun, Option.bind_none, ← hrun]
    · rw [startHostFrame_of_hello (s := t) rfl hs hr (nextReport_of_nothing h)]
      have hello (cause : HelloCause) : helloFrame cause = hostFrame 0x83#8 0 [match cause with
          | .powerOn => 1
          | .restart => 2, 1] := by cases cause <;> rfl
      refine congrArg Host.Outcome.next ?_
      by_cases hw : s.link.helloWaiting = true
      · rw [if_pos hw, if_pos (show t.link.helloWaiting = true from hw)]
        simp only [hello]
        rfl
      · rw [if_neg hw, if_neg (show ¬t.link.helloWaiting = true from hw)]

end Sys2Proof.Machine
end

section
/-! PROOF. Polls and probes that the scheduler takes (R75 to R77, R83). -/

namespace Sys2Proof.Machine

/-! ### The walk (R76) -/

/-- R76: the number at which the walk begins, before it wraps. -/
def walkStart (walk : Option Nat) : Nat := walk.elim 0 (· + 1)

theorem walkOrder_eq (walk : Option Nat) :
    walkOrder walk = (List.range 48).map fun i => (walkStart walk + i) % 48 := by
  cases walk with
  | none =>
    conv_lhs => rw [walkOrder, ← List.map_id (List.range Config.stations)]
    exact List.map_congr_left fun i hi => by
      have := List.mem_range.1 hi
      have size : Config.stations = 48 := rfl
      simp only [walkStart, Option.elim_none, id_eq]
      omega
  | some w => rfl

/-- R76: the place of a station in the walk. -/
def walkPlace (walk : Option Nat) (m : Nat) : Int := ((m : Int) - walkStart walk) % 48

/-- R76: the walk finds the station that satisfies p before any other does. -/
theorem find?_walkOrder {walk : Option Nat} {p : Nat → Bool} {n : Nat} (hn : n < 48) (hp : p n = true)
    (first : ∀ m, m < 48 → walkPlace walk m < walkPlace walk n → p m = false) :
    (walkOrder walk).find? p = some n := by
  unfold walkPlace at first
  generalize hstart : walkStart walk = start at first
  rw [walkOrder_eq, hstart, List.find?_eq_some_iff_getElem]
  refine ⟨hp, (((n : Int) - start) % 48).toNat, by simp; omega, by simp; omega, fun j hj => ?_⟩
  simp only [List.getElem_map, List.getElem_range, Bool.not_eq_true']
  exact first _ (by omega) (by omega)

theorem find?_walkOrder_none {walk : Option Nat} {p : Nat → Bool} (h : ∀ m, m < 48 → p m = false) :
    (walkOrder walk).find? p = none := by
  rw [walkOrder_eq, List.find?_eq_none]
  intro m hm
  obtain ⟨i, -, rfl⟩ := List.mem_map.1 hm
  rw [h _ (by omega)]
  decide

section
variable {s : State} {l : LineId} {n : Nat} {e : Station}

/-! ### What is eligible -/

theorem pollEligible_of_due (he : s.station n = some e) (hs : e.state = .online ∨ e.state = .suspect)
    (hl : e.current = l) (hd : e.pollDue = true) (hh : e.holdoffTimer = none) (hp : e.pendingDisable = false) :
    pollEligible s l n = true := by
  have ring : e.inRing l = true := by rcases hs with hs | hs <;> simp [Station.inRing, hs, hl]
  simp [pollEligible, he, ring, hd, hh, hp]

theorem probeEligible_of_expired (he : s.station n = some e) (ht : e.probeTimer = some 0)
    (hp : e.pendingDisable = false) : probeEligible s n = true := by
  simp [probeEligible, he, ht, hp]

theorem probeEligible_of_not (h : ∀ f, s.station n = some f → f.probeTimer ≠ some 0 ∨ f.pendingDisable = true) :
    probeEligible s n = false := by
  unfold probeEligible
  cases he : s.station n with
  | none => rfl
  | some f => rcases h f he with h | h <;> simp [h]

/-- R74: no command may be taken. -/
theorem eligibleRecord_none (h : ∀ q ∈ s.pool.records, q.state = .queued → q.line = l → recordEligible s q = false) :
    eligibleRecord s l = none := by
  refine List.find?_eq_none.2 fun q hq => ?_
  obtain ⟨hm, hq⟩ := List.mem_filter.1 hq
  simp only [Bool.and_eq_true, beq_iff_eq] at hq
  simp [h q hm hq.1 hq.2]

theorem hasSpace_iff : s.queue.hasSpace = true ↔ s.queue.entries.length + s.queue.reservations < 128 := by
  simp [ReportQueue.hasSpace, ReportQueue.load, show Config.reportSlots = 128 from rfl]

/-! ### The choice -/

theorem exec_schedulerChoice (hm : (s.line l).mode = .active) (hst : (s.line l).stuck = false)
    (hx : (s.line l).exchange = none) (he : (s.line l).ending = none) (hsc : (s.line l).scan = none) :
    exec (.schedulerChoice l) s = .next (chooseWork l s) := by
  have free : (s.line l).free = true := by simp [Line.free, hm, hst, hx, he]
  show Host.Outcome.next (if (s.line l).free then choose l s else s) = _
  rw [if_pos free, choose, hsc]

theorem commandStartable_of_none (h : eligibleRecord s l = none) : commandStartable s l = false := by
  simp [commandStartable, h]

/-- R75: the command streak, once reached, lets a startable poll go first. -/
theorem commandStartable_of_streak (h : (s.line l).config.commandStreak ≤ (s.line l).commandCount)
    (hp : pollStartable s l = true) : commandStartable s l = false := by
  simp [commandStartable, streakAllows, hp, Nat.not_lt.2 h]

theorem chooseWork_of_poll (hc : commandStartable s l = false) (hp : eligiblePoll s l = some n)
    (hs : s.queue.hasSpace = true) : chooseWork l s = takePoll l n s := by
  have startable : pollStartable s l = true := by simp [pollStartable, hp, hs]
  simp [chooseWork, hc, startable, hp]

theorem chooseWork_of_probe (hc : commandStartable s l = false) (hp : eligiblePoll s l = none)
    (hb : eligibleProbe s l = some n) (hs : s.queue.hasSpace = true) : chooseWork l s = takeProbe l n s := by
  have poll : pollStartable s l = false := by simp [pollStartable, hp]
  have startable : probeStartable s l = true := by simp [probeStartable, hb, hs]
  simp [chooseWork, hc, poll, startable, hb]

/-- R76, R83: without a free slot neither a poll nor a probe is chosen. -/
theorem chooseWork_of_full (hc : commandStartable s l = false) (hs : s.queue.hasSpace = false) : chooseWork l s = s := by
  have poll : pollStartable s l = false := by simp [pollStartable, hs]
  have probe : probeStartable s l = false := by simp [probeStartable, hs]
  simp [chooseWork, hc, poll, probe]

/-! ### What is started (R42, R43) -/

/-- R42: a POLL or PROBE as it starts. -/
def polling (kind : ExchangeKind) (n : Nat) (e : Station) (control : Byte) (toggle : Bool) : Exchange :=
  { kind, station := some n, target := e.address, record := none, holdsReservation := true, attempt := 1
    toggleSent := toggle, phase := .transmit, charsSent := 0, lastFailure := none, outcome := none
    frame := lineFrame e.address control [], timer := none }

theorem startExchange_polling (l : LineId) (kind : ExchangeKind) (n : Nat) (e : Station) (toggle : Bool) (s : State) :
    startExchange l kind (some n) e.address none true toggle [] s =
      s.onLine l fun ln =>
        { ln with
          driver := true
          exchange := some (polling kind n e (controlByte (sentKindCode kind) toggle (kind == .probe)) toggle) } := by
  rw [startExchange, onCarried_of_none rfl, beginAttempt_of_none rfl]
  rfl

theorem takePoll_eq (he : s.station n = some e) :
    takePoll l n s =
      ((({ s with queue := { s.queue with reservations := s.queue.reservations + 1 } } : State).setStation n
        (some { e with pollDue := false, pollTimer := none })).onLine l fun ln =>
          { ln with
            walk := some n, commandCount := 0, scanCount := 0, driver := true
            exchange := some (polling .poll n e (if e.toggle then 0x11#8 else 0x01#8) e.toggle) }) := by
  have control : controlByte (sentKindCode .poll) e.toggle (ExchangeKind.poll == .probe)
      = if e.toggle then 0x11#8 else 0x01#8 := by cases e.toggle <;> rfl
  simp only [takePoll, he]
  rw [startExchange_polling, control, State.onLine_onLine]
  rfl

theorem takeProbe_eq (he : s.station n = some e) :
    takeProbe l n s =
      ((({ s with queue := { s.queue with reservations := s.queue.reservations + 1 } } : State).setStation n
        (some
          { e with
            probeTimer := some (s.line l).config.probeInterval
            toggle := false
            counters := { e.counters with probesSent := min (e.counters.probesSent + 1) 65535 } })).onLine l fun ln =>
          { ln with
            commandCount := 0, scanCount := 0, driver := true
            exchange := some (polling .probe n e 0x23#8 false) }) := by
  have control : controlByte (sentKindCode .probe) false (ExchangeKind.probe == .probe) = 0x23#8 := rfl
  simp only [takeProbe, he]
  rw [startExchange_polling, control, State.onLine_onLine]
  rfl

end

/-- Settles O33. -/
theorem pollsAndProbesAreTaken : Obligations.PollsAndProbesAreTaken := by
  intro s l hm hst hx hend hsc noCommand
  refine ⟨fun none full => ?_, fun n e space he hpd => ?_⟩
  · have noSpace : s.queue.hasSpace = false := by
      rw [← Bool.not_eq_true, hasSpace_iff]
      omega
    rw [exec_schedulerChoice hm hst hx hend hsc,
      chooseWork_of_full (commandStartable_of_none (eligibleRecord_none none)) noSpace]
  · intro place started
    have hasSpace := hasSpace_iff.2 space
    refine ⟨fun commands hs hl hd hh first => ?_, fun before after none hlist ht hbefore hpolls => ?_⟩
    · have walk : eligiblePoll s l = some n := by
        refine find?_walkOrder (State.station_lt he) (pollEligible_of_due he hs hl hd hh hpd) fun m hm h => first m hm ?_
        cases hw : (s.line l).walk with
        | none => simpa [place, walkPlace, walkStart, hw] using h
        | some w => simpa [place, walkPlace, walkStart, hw] using h
      have startable : pollStartable s l = true := by simp [pollStartable, walk, hasSpace]
      have noCommands : commandStartable s l = false := by
        rcases commands with h | h
        · exact commandStartable_of_none (eligibleRecord_none h)
        · exact commandStartable_of_streak h startable
      rw [exec_schedulerChoice hm hst hx hend hsc, chooseWork_of_poll noCommands walk hasSpace, takePoll_eq he]
      rfl
    · have noPoll : eligiblePoll s l = Option.none := find?_walkOrder_none hpolls
      have probe : eligibleProbe s l = some n := by
        have passed : before.find? (probeEligible s) = Option.none :=
          List.find?_eq_none.2 fun m hm => by simp [probeEligible_of_not (hbefore m hm)]
        rw [eligibleProbe, hlist, List.find?_append, passed]
        simp [probeEligible_of_expired he ht hpd]
      rw [exec_schedulerChoice hm hst hx hend hsc,
        chooseWork_of_probe (commandStartable_of_none (eligibleRecord_none none)) noPoll probe hasSpace, takeProbe_eq he]
      rfl

end Sys2Proof.Machine
end

section
/-! SUPPORT. What the work of a line leaves aside: a field of a line that it neither reads nor writes may be changed
before it or after it. -/

namespace Sys2Proof.Machine

def Line.withProbeList (p : List Nat) (ln : Line) : Line := { ln with probeList := p }

def Line.withScan (sc : Option Scan) (ln : Line) : Line := { ln with scan := sc }

/-- A change of a line that touches neither its mode, nor its probe list, nor its scan. -/
structure Line.Aside (g : Line → Line) : Prop where
  mode : ∀ ln, (g ln).mode = ln.mode
  probeList : ∀ ln p, g (ln.withProbeList p) = (g ln).withProbeList p
  scan : ∀ ln sc, g (ln.withScan sc) = (g ln).withScan sc

theorem Line.Aside.probeList_eq {g : Line → Line} (h : Line.Aside g) (ln : Line) : (g ln).probeList = ln.probeList := by
  have kept := congrArg Line.probeList (h.probeList ln ln.probeList)
  exact kept

theorem Line.Aside.scan_eq {g : Line → Line} (h : Line.Aside g) (ln : Line) : (g ln).scan = ln.scan := by
  have kept := congrArg Line.scan (h.scan ln ln.scan)
  exact kept

/-! ### What touches no line -/

section
variable (s : State) (l : LineId) (g : Line → Line) (n : Nat) (x : Exchange)

theorem convert_onLine (r : Report) : convert r (s.onLine l g) = (convert r s).onLine l g := by cases l <;> rfl

theorem completeRecord_onLine (r : CommandRecord) (o : CommandOutcome) (d : List Byte) :
    completeRecord r o d (s.onLine l g) = (completeRecord r o d s).onLine l g := by
  have pool : (s.onLine l g).onPool (fun p => { p with records := p.records.eraseP (·.tag == r.tag) })
      = (s.onPool fun p => { p with records := p.records.eraseP (·.tag == r.tag) }).onLine l g := by cases l <;> rfl
  unfold completeRecord resetBusyStreak
  rw [pool, convert_onLine, State.onLine_pool]
  split
  · rfl
  · split
    · rw [← State.onStation_onLine]
    · rfl

theorem completeRecords_onLine (rs : List CommandRecord) (o : CommandOutcome) :
    completeRecords rs o (s.onLine l g) = (completeRecords rs o s).onLine l g := by
  unfold completeRecords
  induction rs generalizing s with
  | nil => rfl
  | cons r rs ih => rw [List.foldl_cons, List.foldl_cons, completeRecord_onLine, ih]

theorem completeAllOf_onLine (o : CommandOutcome) :
    completeAllOf n o (s.onLine l g) = (completeAllOf n o s).onLine l g := by
  rw [completeAllOf, completeAllOf, State.onLine_pool, completeRecords_onLine]

theorem resyncRelease_onLine : resyncRelease n (s.onLine l g) = (resyncRelease n s).onLine l g := by
  rw [resyncRelease, resyncRelease, State.onLine_pool, completeRecords_onLine]

theorem moveRecords_onLine (m : LineId) : moveRecords n m (s.onLine l g) = (moveRecords n m s).onLine l g := by
  cases l <;> rfl

theorem onNamed_onLine (f : Station → Station) : onNamed x f (s.onLine l g) = (onNamed x f s).onLine l g := by
  unfold onNamed
  split
  · rfl
  · exact (State.onStation_onLine ..).symm

theorem releaseHeld_onLine : releaseHeld x (s.onLine l g) = (releaseHeld x s).onLine l g := by
  unfold releaseHeld
  split
  · rw [release_onLine]
  · rfl

theorem completeCarried_onLine (o : CommandOutcome) (d : List Byte) :
    completeCarried x o d (s.onLine l g) = (completeCarried x o d s).onLine l g := by
  unfold completeCarried
  rw [State.onLine_pool]
  split
  · rfl
  · split
    · rfl
    · exact completeRecord_onLine ..

theorem giveBack_onLine : giveBack x (s.onLine l g) = (giveBack x s).onLine l g := by
  unfold giveBack
  rw [State.onLine_pool]
  split
  · rfl
  · split
    · rfl
    · split
      · exact completeRecord_onLine ..
      · rw [onRecord_of_onLine]

end

/-! ### What touches a line's probe list or scan alone -/

section
variable {g : Line → Line} (hg : Line.Aside g) (s : State) (l : LineId) (n : Nat)
include hg

theorem leaveProbeLists_aside : leaveProbeLists n (s.onLine l g) = (leaveProbeLists n s).onLine l g := by
  have left (ln : Line) : g { ln with probeList := ln.probeList.filter (· != n) }
      = (g ln).withProbeList ((g ln).probeList.filter (· != n)) := by
    rw [hg.probeList_eq]
    exact hg.probeList ..
  cases l <;> simp only [leaveProbeLists, State.onLine, left] <;> rfl

theorem joinProbeList_aside (m : LineId) : joinProbeList m n (s.onLine l g) = (joinProbeList m n s).onLine l g := by
  have joined (ln : Line) : g { ln with probeList := ln.probeList ++ [n] }
      = (g ln).withProbeList ((g ln).probeList ++ [n]) := by
    rw [hg.probeList_eq]
    exact hg.probeList ..
  cases l <;> cases m <;> simp only [joinProbeList, State.onLine, joined] <;> rfl

theorem enterProbing_aside : enterProbing n (s.onLine l g) = (enterProbing n s).onLine l g := by
  unfold enterProbing
  rw [State.onLine_station]
  split
  · rfl
  · rw [← State.setStation_onLine, leaveProbeLists_aside hg, joinProbeList_aside hg]

theorem disableTakesEffect_aside : disableTakesEffect n (s.onLine l g) = (disableTakesEffect n s).onLine l g := by
  simp only [disableTakesEffect, enterDisabled]
  rw [← State.onStation_onLine, leaveProbeLists_aside hg, completeAllOf_onLine, ← State.onStation_onLine]

theorem resolveDisable_aside : resolveDisable n (s.onLine l g) = (resolveDisable n s).onLine l g := by
  unfold resolveDisable
  rw [State.onLine_station]
  split
  · rfl
  · split
    · exact disableTakesEffect_aside hg ..
    · rfl

theorem stationReached_aside : stationReached n (s.onLine l g) = (stationReached n s).onLine l g := by
  rw [stationReached, stationReached, leaveProbeLists_aside hg, ← State.onStation_onLine]

theorem stationAnswered_aside : stationAnswered n (s.onLine l g) = (stationAnswered n s).onLine l g := by
  unfold stationAnswered
  rw [State.onLine_station]
  split
  · rfl
  · split
    · rfl
    · rfl
    · rw [State.setStation_onLine]
    · exact stationReached_aside hg ..
    · exact stationReached_aside hg ..

theorem enterOffline_aside : enterOffline n (s.onLine l g) = (enterOffline n s).onLine l g := by
  unfold enterOffline
  rw [State.onLine_station]
  split
  · rfl
  · split
    · rw [State.setStation_onLine]
    · rw [← State.setStation_onLine, leaveProbeLists_aside hg, joinProbeList_aside hg]

theorem failOver_aside : failOver n (s.onLine l g) = (failOver n s).onLine l g := by
  unfold failOver
  rw [State.onLine_station]
  split
  · rfl
  · simp only [leaveProbeLists_aside hg, ← State.onStation_onLine, resyncRelease_onLine, moveRecords_onLine,
      enterProbing_aside hg]

theorem loseStation_aside : loseStation n (s.onLine l g) = (loseStation n s).onLine l g := by
  rw [loseStation, loseStation, enterOffline_aside hg, completeAllOf_onLine, ← State.onStation_onLine]

theorem failoverPossible_aside (e : Station) : failoverPossible e (s.onLine l g) = failoverPossible e s := by
  have mode (m : LineId) : ((s.onLine l g).line m).mode = (s.line m).mode := by
    cases l <;> cases m <;> simp [State.onLine, State.line, hg.mode]
  rw [failoverPossible, failoverPossible, mode]

theorem compareThreshold_aside : compareThreshold n (s.onLine l g) = (compareThreshold n s).onLine l g := by
  unfold compareThreshold
  rw [State.onLine_station]
  split
  · rfl
  · rw [failoverPossible_aside hg]
    split
    · split
      · exact failOver_aside hg ..
      · exact loseStation_aside hg ..
    · rfl

theorem stationFailed_aside : stationFailed n (s.onLine l g) = (stationFailed n s).onLine l g := by
  unfold stationFailed
  rw [State.onLine_station]
  split
  · rfl
  · split
    · rfl
    · simp only [← State.setStation_onLine, compareThreshold_aside hg]
    · simp only [← State.setStation_onLine, compareThreshold_aside hg]
    · simp only [← State.setStation_onLine, compareThreshold_aside hg]
    · simp only [← State.setStation_onLine]

theorem applyResult_aside (r : ExchangeResult) : applyResult n r (s.onLine l g) = (applyResult n r s).onLine l g := by
  cases r with
  | answered => exact stationAnswered_aside hg ..
  | failed => exact stationFailed_aside hg ..
  | nothing => rfl

theorem scanEnded_aside (status : ScanStatus) : scanEnded l status (s.onLine l g) = (scanEnded l status s).onLine l g := by
  unfold scanEnded
  rw [State.line_onLine_same, hg.scan_eq]
  split
  · rfl
  · rw [converted_onLine, State.onLine_onLine, State.onLine_onLine]
    exact congrArg _ (State.onLine_congr (hg.scan _ _).symm)

/-- R136: the result absent. -/
theorem rollCallResult_aside : rollCallResult l false (s.onLine l g) = (rollCallResult l false s).onLine l g := by
  have scan : ((s.onLine l g).line l).scan = (s.line l).scan := by rw [State.line_onLine_same, hg.scan_eq]
  by_cases idle : ∀ sc, (s.line l).scan = some sc → sc.rollCall = false
  · rw [rollCallResult_of_not_waiting idle, rollCallResult_of_not_waiting (by rwa [scan])]
  · simp only [not_forall, Bool.not_eq_false] at idle
    obtain ⟨sc, hs, hr⟩ := idle
    rw [rollCallResult_of_waiting hs hr, rollCallResult_of_waiting (scan.trans hs) hr]
    split
    · rw [converted_onLine, State.onLine_onLine, State.onLine_onLine]
      exact congrArg _ (State.onLine_congr (hg.scan _ _).symm)
    · rw [State.onLine_onLine, State.onLine_onLine]
      exact State.onLine_congr (hg.scan _ _).symm

/-- R67: the work of an exchange that is cut off. -/
theorem disposeWork_aside (x : Exchange) : disposeWork l x (s.onLine l g) = (disposeWork l x s).onLine l g := by
  cases hk : x.kind with
  | poll => rw [disposeWork_of_poll hk, disposeWork_of_poll hk, releaseHeld_onLine, onNamed_onLine]
  | probe => rw [disposeWork_of_probe hk, disposeWork_of_probe hk, releaseHeld_onLine, onNamed_onLine]
  | rollCall => rw [disposeWork_of_rollCall hk, disposeWork_of_rollCall hk, rollCallResult_aside hg]
  | command => rw [disposeWork_of_record (.inl hk), disposeWork_of_record (.inl hk), giveBack_onLine]
  | broadcast => rw [disposeWork_of_record (.inr hk), disposeWork_of_record (.inr hk), giveBack_onLine]

end

end Sys2Proof.Machine
end

section
/-! PROOF. A mode change or line reset that waited goes on (R25, R65, R131, R140, R141). -/

namespace Sys2Proof.Machine

section
variable {s : State} {l : LineId} {m : LineMode}

/-! ### Cutting off, whatever phase the exchange is in, and whatever the receiver waits for -/

/-- R65, R67: the end of an exchange x whose work has been disposed of. -/
def cutOffFrom (l : LineId) (x : Exchange) (s : State) : State :=
  let v := (if x.outcome.isSome then s else disposeWork l x s).onLine l fun ln => { ln with exchange := none }
  match x.station with
  | none => v
  | some n => resolveDisable n (applyResult n x.result v)

theorem cutOff_eq {x : Exchange} (hx : (s.line l).exchange = some x) :
    cutOff l s = cutOffFrom l x (s.onLine l Line.released) := by
  have ends (u : State) (hu : (u.line l).exchange = some x) : endExchange l u =
      let v := u.onLine l fun ln => { ln with exchange := none }
      match x.station with
      | none => v
      | some n => resolveDisable n (applyResult n x.result v) := by
    cases hn : x.station with
    | none => exact endExchange_of_none hu hn
    | some n => exact endExchange_of_station hu hn
  have released : ((s.onLine l Line.released).line l).exchange = some x := by rwa [State.line_onLine_same]
  by_cases ho : x.outcome.isSome
  · rw [cutOff_of_decided hx ho, ends _ released, cutOffFrom, if_pos ho]
  · rw [cutOff_of_undecided hx (Option.not_isSome_iff_eq_none.1 ho), ends _ ((disposeWork_exchange ..).trans released),
      cutOffFrom, if_neg ho]

section
variable {g : Line → Line} (hg : Line.Aside g)
include hg

/-- What the cut-off leaves aside, where it is not the exchange. -/
theorem cutOffFrom_aside (x : Exchange) (hx : ∀ ln, g { ln with exchange := none } = { (g ln) with exchange := none }) :
    cutOffFrom l x (s.onLine l g) = (cutOffFrom l x s).onLine l g := by
  have removed (u : State) : (u.onLine l g).onLine l (fun ln => { ln with exchange := none })
      = (u.onLine l fun ln => { ln with exchange := none }).onLine l g := by
    rw [State.onLine_onLine, State.onLine_onLine]
    exact State.onLine_congr (hx _).symm
  unfold cutOffFrom
  rw [disposeWork_aside hg, ← apply_ite (fun u : State => u.onLine l g)]
  simp only [removed]
  split
  · rfl
  · rw [applyResult_aside hg, resolveDisable_aside hg]

/-- R65: a change of the exchange record is gone with it. -/
theorem cutOffFrom_replaced (x : Exchange) (hx : ∀ ln, { (g ln) with exchange := none } = { ln with exchange := none }) :
    cutOffFrom l x (s.onLine l g) = cutOffFrom l x s := by
  have removed (u : State) : (u.onLine l g).onLine l (fun ln => { ln with exchange := none })
      = u.onLine l fun ln => { ln with exchange := none } := by
    rw [State.onLine_onLine]
    exact State.onLine_congr (hx _)
  unfold cutOffFrom
  rw [disposeWork_aside hg, ← apply_ite (fun u : State => u.onLine l g)]
  simp only [removed]

end

/-- What the receiver waits for is left aside. -/
def Line.waiting (w : Bool) (ln : Line) : Line := { ln with awaitsMark := w }

theorem Line.waiting_aside (w : Bool) : Line.Aside (Line.waiting w) := ⟨fun _ => rfl, fun _ _ => rfl, fun _ _ => rfl⟩

/-- And so is the exchange in flight. -/
def Line.carrying (x : Exchange) (ln : Line) : Line := { ln with exchange := some x }

theorem Line.carrying_aside (x : Exchange) : Line.Aside (Line.carrying x) :=
  ⟨fun _ => rfl, fun _ _ => rfl, fun _ _ => rfl⟩

theorem cutOff_waiting {x : Exchange} (hx : (s.line l).exchange = some x) (w : Bool) :
    cutOff l (s.onLine l (Line.waiting w)) = (cutOff l s).onLine l (Line.waiting w) := by
  rw [cutOff_eq hx, cutOff_eq (x := x) (by rwa [State.line_onLine_same]), State.onLine_onLine,
    ← cutOffFrom_aside (Line.waiting_aside w) x fun _ => rfl, State.onLine_onLine]
  rfl

theorem cutOff_guard {x : Exchange} (hx : (s.line l).exchange = some x) :
    cutOff l (s.onLine l (Line.carrying { x with phase := .guard })) = cutOff l s := by
  have same : cutOffFrom l { x with phase := .guard } = cutOffFrom l x := rfl
  rw [cutOff_eq hx, cutOff_eq (x := { x with phase := .guard }) (by rw [State.line_onLine_same]; rfl), same,
    State.onLine_onLine,
    ← cutOffFrom_replaced (s := s.onLine l Line.released) (Line.carrying_aside { x with phase := .guard }) x fun _ => rfl,
    State.onLine_onLine]
  rfl

/-! ### The change of mode and the reset after it -/

theorem changeMode_of_cutOff {s t : State} (hs : (s.line l).mode = .active) (ht : (t.line l).mode = .active)
    (hm : m ≠ .active) (hn : m ≠ .test) {w : Bool} (h : cutOff l s = (cutOff l t).onLine l (Line.waiting w)) :
    changeMode l m s = changeMode l m t := by
  rw [changeMode_of_active hs hm hn, changeMode_of_active ht hm hn, h, scanEnded_aside (Line.waiting_aside w)]
  unfold modeTaken
  rw [State.onLine_onLine, State.onLine_onLine, State.onLine_onLine]
  exact State.onLine_congr rfl

theorem resetLineNow_congr {s t : State} {f : Line → Line} (h : endWorkForReset l s = (endWorkForReset l t).onLine l f)
    (hf : ∀ ln, clearLine (f ln) = clearLine ln) : resetLineNow l s = resetLineNow l t := by
  have cleared : (endWorkForReset l s).onLine l clearLine = (endWorkForReset l t).onLine l clearLine := by
    rw [h, State.onLine_onLine]
    exact State.onLine_congr (hf _)
  simp only [resetLineNow, cleared]

theorem resetLineNow_of_cutOff {s t : State} (hs : (s.line l).mode = .active) (ht : (t.line l).mode = .active) {w : Bool}
    (h : cutOff l s = (cutOff l t).onLine l (Line.waiting w)) : resetLineNow l s = resetLineNow l t := by
  refine resetLineNow_congr (f := Line.waiting w) ?_ fun _ => rfl
  rw [endWorkForReset_eq (.inl ⟨hs, rfl⟩), endWorkForReset_eq (.inl ⟨ht, rfl⟩), h,
    scanEnded_aside (Line.waiting_aside w)]

/-! ### The frame of a change of mode -/

theorem changeMode_framed (k : State) : changeMode l m (s.framed k) = (changeMode l m s).framed k := by
  have work : endLineWork l (s.framed k) = (endLineWork l s).framed k := by
    unfold endLineWork
    rw [State.framed_line]
    split <;> simp
  simp only [changeMode, work, State.framed_line, endAssembly, takeMode, raiseLineNotice, State.onLine_framed]
  split <;> rfl

/-- The host link stands aside of the work of a line. -/
theorem framed_withLink {f : State → State} (hf : ∀ s k, f (s.framed k) = (f s).framed k) (s : State) (k : Link) :
    f { s with link := k } = { f s with link := k } := by
  have kept : (f s).framed s = f s := (hf s s).symm
  rw [← kept]
  exact hf s { s with link := k }

theorem framed_link {f : State → State} (hf : ∀ s k, f (s.framed k) = (f s).framed k) (s : State) :
    (f s).link = s.link := by rw [show f s = (f s).framed s from hf s s]; rfl

/-! ### The request held -/

variable {r : Request} {rest : List Request} {body : List Byte}

/-- R168: the request held, at the head of the intake. -/
def heldAgain (r : Request) (rest : List Request) (body : List Byte) (s t : State) : State :=
  { t with link := { s.link with intake := { r with body } :: rest, held := none } }

/-- R65, R126, R131: the request that waited is answered as if it were taken now. -/
theorem takeRequest_heldAgain {s t u : State} {code : Nat} {apply : List Byte → State → Applied} {now : State → State}
    (hnow : ∀ s k, now (s.framed k) = (now s).framed k) (hr : s.link.held = some r) (hi : s.link.intake = rest)
    (hroom : s.link.responses.length < 8) (hw : s.link.restartWaiting = false) (ho : s.link.session.state ≠ .closed)
    (hu : u.link = s.link) (same : now u = now t) (hc : requestCode body = some code) (hl : lengthFits body = true)
    (h4 : code ≠ 4)
    (ha : ∀ v, (∀ m, v.line m = t.line m) → apply body v = ⟨now v, some ⟨.ok, []⟩⟩) :
    answerHeld (now u) = takeRequest code false apply (heldAgain r rest body s t) := by
  have handed : Handed (heldAgain r rest body s t) { r with body } rest := ⟨⟨rfl, hroom, hw, rfl⟩, ho⟩
  have taken : headTaken rest (heldAgain r rest body s t) = { t with link := { s.link with intake := rest, held := none } } :=
    rfl
  have link : (now u).link = s.link := (framed_link hnow u).trans hu
  have answers : answerHeld (now u) = answered r .ok [] { now u with link := { s.link with held := none } } := by
    unfold answerHeld
    rw [link, hr, ← respond_eq_answered, ← link]
    rfl
  rw [takeRequest_of_apply handed hc hl h4 (ha _ fun m => by cases m <;> rfl), taken, framed_withLink hnow t, answers, same,
    ← hi]
  rfl

/-- R25, R65, R131: what waited goes on, once the character in the shift path is complete. The state t is as the line
stands then, its driver released. -/
theorem driverRelease_goesOn {s t : State} {line mode : Byte} (hl : l = .a ∧ line = 0 ∨ l = .b ∧ line = 1)
    (hr : s.link.held = some r) (hi : s.link.intake = rest) (hroom : s.link.responses.length < 8)
    (hw : s.link.restartWaiting = false) (ho : s.link.session.state ≠ .closed)
    (hu : (completeShift l s).link = s.link) (idle : (t.line l).transmitting = false)
    (hmode : (s.line l).mode = .active ∨ (s.line l).mode = .test) (kept : (t.line l).mode = (s.line l).mode)
    (changes : ∀ m, m ≠ .test → (s.line l).mode ≠ m →
      changeMode l m (releaseDriver l (completeShift l s)) = changeMode l m t)
    (resets : resetLineNow l (releaseDriver l (completeShift l s)) = resetLineNow l t) :
    (∀ m, (m = LineMode.off ∧ mode = 0 ∨ m = .monitor ∧ mode = 2
          ∨ (s.line l).mode = .test ∧ m = .active ∧ mode = 1) →
        (s.line l).ending = some (.modeChange m) → body = [0x40#8, line, mode] →
        exec (.driverRelease l) s = exec .setLineMode (heldAgain r rest body s t))
      ∧ ((s.line l).ending = some .lineReset → body = [0x42#8, line] →
        exec (.driverRelease l) s = exec .resetLine (heldAgain r rest body s t)) := by
  have link : (releaseDriver l (completeShift l s)).link = s.link := by rw [releaseDriver, State.onLine_link, hu]
  refine ⟨fun m hm he hb => ?_, fun he hb => ?_⟩
  · have codes : m = .off ∧ mode = 0 ∨ m = .active ∧ mode = 1 ∨ m = .monitor ∧ mode = 2 := by tauto
    have other : (s.line l).mode ≠ m := by
      rcases hmode with h | h <;> rcases hm with ⟨rfl, -⟩ | ⟨rfl, -⟩ | ⟨h', rfl, -⟩ <;> simp_all
    have notTest : m ≠ .test := by rcases codes with ⟨rfl, -⟩ | ⟨rfl, -⟩ | ⟨rfl, -⟩ <;> decide
    have released : exec (.driverRelease l) s
        = .next (answerHeld (changeMode l m (releaseDriver l (completeShift l s)))) := by
      show execDriverRelease l s = _
      simp only [execDriverRelease, he]
    rw [released]
    refine congrArg Host.Outcome.next (takeRequest_heldAgain (code := 0x40) (fun _ _ => changeMode_framed _) hr hi hroom hw
      ho link (changes m notTest other) (by rw [hb]; rfl) (by rw [hb]; rfl) (by decide) fun v hv => ?_)
    rw [show body = ({ r with body } : Request).body from rfl, applySetLineMode_eq (r := { r with body }) hb hl codes,
      if_neg (by rw [hv, kept]; exact other), afterShift, hv, idle]
    rfl
  · have released : exec (.driverRelease l) s
        = .next (answerHeld (resetLineNow l (releaseDriver l (completeShift l s)))) := by
      show execDriverRelease l s = _
      simp only [execDriverRelease, he]
    rw [released]
    refine congrArg Host.Outcome.next (takeRequest_heldAgain (code := 0x42) (fun s k => resetLineNow_framed s k l) hr hi
      hroom hw ho link resets (by rw [hb]; rfl) (by rw [hb]; rfl) (by decide) fun v hv => ?_)
    have named : applyResetLine body v = afterShift l .lineReset (resetLineNow l) v := by
      have hline : u8At body 1 = line.toNat := by rw [hb]; rfl
      rw [applyResetLine, withLine, hline]
      rcases hl with ⟨rfl, rfl⟩ | ⟨rfl, rfl⟩ <;> rfl
    rw [named, afterShift, hv, idle]
    rfl

end

end Sys2Proof.Machine
end

section
/-! PROOF. The character that completes at an ending, of an exchange and of a line test (R25, R44, R140, R141). -/

namespace Sys2Proof.Machine

section
variable {s : State} {l : LineId} {x : Exchange} {t : LineTest}

/-- R25, R26: the release of the driver, apart from the receiver's wait for mark. -/
theorem releaseDriver_onLine (s : State) (l : LineId) (f : Line → Line) :
    ∃ w, releaseDriver l (s.onLine l f)
      = (s.onLine l fun ln => { f ln with driver := false, ending := none }).onLine l (Line.waiting w) := by
  let ln := f (s.line l)
  refine ⟨if ln.mode = .active ∧ ln.driver then !ln.rxMark else ln.awaitsMark, ?_⟩
  rw [releaseDriver, State.onLine_onLine, State.onLine_onLine]
  exact State.onLine_congr rfl

/-! ### Of an exchange -/

/-- R44: what the character that leaves does to records; nothing, but with the last of a frame. -/
def shiftWork (x : Exchange) (s : State) : State :=
  if x.charsSent + 1 < x.frame.length then s
  else if x.kind = .broadcast then
    completeCarried x .sent [] (onCarried x (fun r => { r with transmitted := true }) s)
  else onCarried x (fun r => { r with transmitted := true }) s

/-- R44: the exchange after it. -/
def Exchange.shifted (x : Exchange) : Exchange :=
  if x.charsSent + 1 < x.frame.length then { x with charsSent := x.charsSent + 1 }
  else
    let y : Exchange := { x with phase := .guard, charsSent := x.frame.length }
    if x.kind = .broadcast then y.decided .sent else y

/-- R44: and the line. -/
def Line.shifted (x : Exchange) (ln : Line) : Line :=
  { ln with
    counters := if x.charsSent + 1 < x.frame.length then ln.counters else ln.counters.countSent
    exchange := some x.shifted }

theorem shiftWork_onLine (x : Exchange) (s : State) (g : Line → Line) :
    shiftWork x (s.onLine l g) = (shiftWork x s).onLine l g := by
  unfold shiftWork
  rw [← onCarried_onLine, completeCarried_onLine]
  split
  · rfl
  · split <;> rfl

theorem onCarried_line (x : Exchange) (f : CommandRecord → CommandRecord) (s : State) (m : LineId) :
    (onCarried x f s).line m = s.line m := by
  unfold onCarried
  split
  · rfl
  · exact onRecord_line ..

theorem completeCarried_line (x : Exchange) (o : CommandOutcome) (d : List Byte) (s : State) (m : LineId) :
    (completeCarried x o d s).line m = s.line m := by
  unfold completeCarried
  split
  · rfl
  · split
    · rfl
    · exact completeRecord_line ..

theorem shiftWork_line (x : Exchange) (s : State) (m : LineId) : (shiftWork x s).line m = s.line m := by
  unfold shiftWork
  split
  · rfl
  · split
    · rw [completeCarried_line, onCarried_line]
    · exact onCarried_line ..

theorem shiftWork_link (x : Exchange) (s : State) : (shiftWork x s).link = s.link := by
  have carried : (onCarried x (fun r => { r with transmitted := true }) s).link = s.link := by
    unfold onCarried
    split
    · rfl
    · exact onRecord_link ..
  unfold shiftWork
  split
  · rfl
  · split
    · unfold completeCarried
      split
      · exact carried
      · split
        · exact carried
        · rw [completeRecord_link, carried]
    · exact carried

/-- R44: the last character of a frame. -/
theorem exchangeFrameLeft_shifted (hx : (s.line l).exchange = some x) (hk : ¬x.charsSent + 1 < x.frame.length) :
    exchangeFrameLeft l x s = (shiftWork x s).onLine l (Line.shifted x) := by
  rw [exchangeFrameLeft_eq hx, ← shiftWork_onLine]
  simp only [shiftWork, hk, if_false]
  have shifted : Line.shifted x = fun ln =>
      { (Line.frameLeft x ln) with exchange := some x.shifted } := by
    funext ln
    simp only [Line.shifted, hk, if_false]
    rfl
  by_cases hb : x.kind = .broadcast
  · have left : x.shifted = ({ x with phase := .guard, charsSent := x.frame.length } : Exchange).decided .sent :=
      (if_neg hk).trans (if_pos hb)
    rw [if_pos hb, if_pos hb, decideOutcome_eq (x := { x with phase := .guard, charsSent := x.frame.length }) .sent
      (by rw [completeCarried_line, onCarried_line, State.line_onLine_same]; rfl), ← completeCarried_onLine,
      onCarried_onLine, State.onLine_onLine, shifted, left]
    rfl
  · have left : x.shifted = { x with phase := .guard, charsSent := x.frame.length } := (if_neg hk).trans (if_neg hb)
    rw [if_neg hb, if_neg hb, shifted, left]
    rfl

theorem completeShift_of_exchange (hx : (s.line l).exchange = some x) :
    completeShift l s = (shiftWork x s).onLine l (Line.shifted x) := by
  unfold completeShift
  rw [hx]
  by_cases hk : x.charsSent + 1 < x.frame.length
  · have next : x.shifted = { x with charsSent := x.charsSent + 1 } := if_pos hk
    simp only [hk, if_true, shiftWork]
    rw [onExchange_eq _ hx]
    exact State.onLine_congr (by simp only [Line.shifted, hk, if_true, next])
  · simp only [hk, if_false]
    exact exchangeFrameLeft_shifted hx hk

/-- R44: the row on the character that leaves. -/
theorem exec_shift (he : (s.line l).ending = none) (hx : (s.line l).exchange = some x) (hp : x.phase = .transmit)
    (hle : x.charsSent + 1 ≤ x.frame.length) :
    exec (if x.charsSent + 1 = x.frame.length then .frameSent l else .characterSent l) s
      = .next ((shiftWork x s).onLine l (Line.shifted x)) := by
  rw [← completeShift_of_exchange hx]
  unfold completeShift
  rw [hx]
  by_cases hk : x.charsSent + 1 = x.frame.length
  · rw [if_pos hk, exec_frameSent he hx hp hk]
    exact congrArg _ (if_neg (by omega)).symm
  · rw [if_neg hk, exec_characterSent he hx hp (by omega)]
    exact congrArg _ (if_pos (by omega)).symm

/-! ### Of a line test -/

/-- R140: the test after the character that leaves, which the loop has delivered. -/
def LineTest.shifted (t : LineTest) : LineTest :=
  if t.charsSent + 1 < 37 then { t with charsSent := t.charsSent + 1, delivered := false }
  else { t with framesSent := t.framesSent + 1, charsSent := t.charsSent + 1 }

/-- R140: and the line. -/
def Line.testShifted (t : LineTest) (ln : Line) : Line :=
  { ln with
    counters := if t.charsSent + 1 < 37 then ln.counters else ln.counters.countSent
    test := some t.shifted }

theorem completeShift_of_test (hx : (s.line l).exchange = none) (ht : (s.line l).test = some t) (hd : t.delivered = true) :
    completeShift l s = s.onLine l (Line.testShifted t) := by
  have delivered : deliverLoop l s = s := deliverLoop_of_none (Line.loopDelivery_of_delivered ht hd)
  unfold completeShift
  rw [hx, ht]
  simp only [testFrame_length]
  by_cases hk : t.charsSent + 1 < 37
  · rw [if_pos hk, testCharacterLeft, delivered]
    exact State.onLine_congr (by simp [Line.testShifted, LineTest.shifted, hk, ht])
  · rw [if_neg hk, testFrameLeft, delivered, countLine, State.onLine_onLine]
    exact State.onLine_congr (by simp [Line.testShifted, LineTest.shifted, hk, ht])

/-- R141: the line that the end of a test leaves. -/
def Line.testOver (ln : Line) : Line :=
  lineNoticed
    { ln with
      test := none, mode := .off, awaitsMark := false, assembler := none
      counters := abandonedIf ln.assembler.isSome ln.counters }
    .testEnded

/-- R141: the end of a test looks at its counts alone, and at nothing of the line that it sets. -/
theorem testEnded_congr {u v : State} {t t' : LineTest} (status : TestStatus)
    (hu : u.onLine l Line.testOver = v.onLine l Line.testOver)
    (ht : (t.framesSent, t.framesMatched, t.firstMismatch) = (t'.framesSent, t'.framesMatched, t'.firstMismatch)) :
    testEnded l t status u = testEnded l t' status v := by
  simp only [Prod.mk.injEq] at ht
  obtain ⟨sent, matched, mismatch⟩ := ht
  show converted _ (u.onLine l Line.testOver) = converted _ (v.onLine l Line.testOver)
  rw [hu, sent, matched, mismatch]

/-- R140: a test that is no longer sending, its last character gone. -/
def LineTest.stood (t : LineTest) : LineTest :=
  { t with
    phase := .awaiting, charsSent := t.charsSent + 1
    framesSent := if t.charsSent = 36 then t.framesSent + 1 else t.framesSent }

def Line.stood (t : LineTest) (ln : Line) : Line :=
  { ln with
    counters := if t.charsSent = 36 then ln.counters.countSent else ln.counters
    test := some t.stood }

/-- R141: the end of the test cannot tell whether the test still stands at the character that has left. -/
theorem testEnded_shifted {u v : State} (status : TestStatus) (hk : t.charsSent ≤ 36) {w : Bool}
    (hu : u = (s.onLine l fun ln => { Line.testShifted t ln with driver := false, ending := none }).onLine l
      (Line.waiting w))
    (hv : v = s.onLine l fun ln => { Line.stood t ln with driver := false, ending := none }) :
    testEnded l t.shifted status u = testEnded l t.stood status v := by
  have last : t.charsSent + 1 < 37 ↔ t.charsSent ≠ 36 := by omega
  refine testEnded_congr status ?_ ?_
  · rw [hu, hv, State.onLine_onLine, State.onLine_onLine, State.onLine_onLine]
    refine State.onLine_congr ?_
    by_cases h : t.charsSent = 36 <;> simp [Line.testOver, Line.waiting, Line.testShifted, Line.stood, last, h]
  · by_cases h : t.charsSent = 36 <;> simp [LineTest.shifted, LineTest.stood, last, h]

/-! ### The character that the loop delivers first (R140) -/

/-- R22, R28: the ten samples of the internal loop give its character back. -/
theorem receivedCharacter_loop {ln : Line} {c : LineCharacter} (h : ln.loopCharacter = some c) :
    receivedCharacter ((List.range 10).map fun i => ln.loopLevel (i + 1)) = (c, false) := by
  have level (i : Nat) : ln.loopLevel (i + 1)
      = (dataBits c.byte ++ c.addressMark :: List.replicate ln.config.stopBits true).getD i true := by
    rw [Line.loopLevel_of_some h]
    rfl
  have data : (List.range 8).map (fun i => ln.loopLevel (i + 1)) = (List.range 8).map fun i => c.byte.getLsbD i := by
    refine List.map_congr_left fun i hi => ?_
    have inside := List.mem_range.1 hi
    rw [level, List.getD_append _ _ _ _ (by simpa using inside)]
    simp [dataBits, inside]
  have mark : ln.loopLevel 9 = c.addressMark := by
    rw [level, List.getD_append_right _ _ _ _ (by simp)]
    simp
  have stop : ln.loopLevel 10 = true := by
    rw [level, List.getD_append_right _ _ _ _ (by simp), dataBits_length, List.getD_cons_succ]
    cases ln.config.stopBits <;> simp
  have ten : List.range 10 = List.range 8 ++ [8, 9] := rfl
  rw [ten, List.map_append, data, List.map_cons, List.map_cons, List.map_nil, mark, stop]
  exact receivedCharacter_samples c.byte c.addressMark false []

/-- R140: the row that the levels on the loop name takes the character on it. -/
theorem row_of_sending (hm : (s.line l).mode = .test) (ha : (s.line l).afterRestart = none)
    (hx : (s.line l).exchange = none) (ht : (s.line l).test = some t) (hp : t.phase = .sending)
    (hd : t.delivered = false) :
    ∃ row, (s.line l).receipt l ((List.range 10).map fun i => (s.line l).loopLevel (i + 1)) = some row
      ∧ exec row s = .next (deliverLoop l s) := by
  have hearing := Line.hearing_of_test hm
  have character := Line.loopCharacter_of_sending ha hx ht hp
  obtain ⟨k, hk, delivers⟩ := deliverLoop_of_sending hm ha hx ht hp hd
  obtain rfl := Option.some.inj ((hearing.classify_eq ..).symm.trans hk)
  refine ⟨_, Line.receipt_of_class (receivedCharacter_loop character) hk, ?_⟩
  rw [exec_row_classOf, characterEvent_of_class
    (Line.hears_of_delivery (Line.loopDelivery_of_sending hm ha hx ht hp hd)) hk, delivers]

/-- R140: what the loop delivers of a test in SENDING. -/
theorem deliverLoop_test (hm : (s.line l).mode = .test) (ha : (s.line l).afterRestart = none)
    (hx : (s.line l).exchange = none) (ht : (s.line l).test = some t) (hp : t.phase = .sending)
    (hd : t.delivered = false) :
    ∃ counters assembler handed,
      deliverLoop l s = s.onLine l fun ln =>
        { ln with awaitsMark := false, counters, assembler, test := some { t with delivered := true, handed } } := by
  obtain ⟨k, -, delivers⟩ := deliverLoop_of_sending hm ha hx ht hp hd
  rw [delivers]
  exact takeCharacter_of_sending hm hx ht hp k _ false

/-- R141: what waited for a character of a line test goes on. -/
theorem driverRelease_goesOn_of_test {r : Request} {rest : List Request} {body : List Byte} {line mode : Byte}
    (hl : l = .a ∧ line = 0 ∨ l = .b ∧ line = 1) (hr : s.link.held = some r) (hi : s.link.intake = rest)
    (hroom : s.link.responses.length < 8) (hw : s.link.restartWaiting = false) (ho : s.link.session.state ≠ .closed)
    (hx : (s.line l).exchange = none) (ht : (s.line l).test = some t) (hm : (s.line l).mode = .test)
    (hk : t.charsSent ≤ 36) (hd : t.delivered = true) :
    let again := (s.onLine l (Line.stood t)).onLine l fun ln => { ln with driver := false, ending := none }
    (∀ m, (m = LineMode.off ∧ mode = 0 ∨ m = .monitor ∧ mode = 2
          ∨ (s.line l).mode = .test ∧ m = .active ∧ mode = 1) →
        (s.line l).ending = some (.modeChange m) → body = [0x40#8, line, mode] →
        exec (.driverRelease l) s = exec .setLineMode (heldAgain r rest body s again))
      ∧ ((s.line l).ending = some .lineReset → body = [0x42#8, line] →
        exec (.driverRelease l) s = exec .resetLine (heldAgain r rest body s again)) := by
  intro again
  have stands : again = s.onLine l fun ln => { Line.stood t ln with driver := false, ending := none } :=
    State.onLine_onLine ..
  have shifts := completeShift_of_test hx ht hd
  obtain ⟨w, now⟩ := releaseDriver_onLine s l (Line.testShifted t)
  rw [← shifts] at now
  have nowMode : ((releaseDriver l (completeShift l s)).line l).mode = .test := by
    rw [now, State.line_onLine_same, State.line_onLine_same]
    exact hm
  have nowTest : ((releaseDriver l (completeShift l s)).line l).test = some t.shifted := by
    rw [now, State.line_onLine_same, State.line_onLine_same]
    rfl
  have againMode : (again.line l).mode = .test := by
    rw [stands, State.line_onLine_same]
    exact hm
  have againTest : (again.line l).test = some t.stood := by
    rw [stands, State.line_onLine_same]
    rfl
  have ends := testEnded_shifted (u := releaseDriver l (completeShift l s)) (v := again) .aborted hk now stands
  refine driverRelease_goesOn hl hr hi hroom hw ho ?_ ?_ (.inr hm) (againMode.trans hm.symm) (fun m hn _ => ?_) ?_
  · rw [shifts, State.onLine_link]
  · have idle : (again.line l).exchange = none := by
      rw [stands, State.line_onLine_same]
      exact hx
    have bare : (again.line l).afterRestart = none := by
      rw [stands, State.line_onLine_same]
      rfl
    simp [Line.transmitting, Line.pinCharacter, Line.loopCharacter, Line.exchangeCharacter, Line.testCharacter, bare,
      idle, againTest, LineTest.stood]
  · rw [changeMode_of_test nowMode nowTest hn, changeMode_of_test againMode againTest hn, ends]
  · have work : endWorkForReset l (releaseDriver l (completeShift l s)) = endWorkForReset l again := by
      rw [endWorkForReset_eq (.inr (.inl ⟨_, nowMode, nowTest, rfl⟩)),
        endWorkForReset_eq (.inr (.inl ⟨_, againMode, againTest, rfl⟩)), ends]
    simp only [resetLineNow, work]

/-- R140: a character that the loop has delivered completes the shift as it would have, had the loop to deliver it. -/
theorem completeShift_deliverLoop (hm : (s.line l).mode = .test) (ha : (s.line l).afterRestart = none)
    (hx : (s.line l).exchange = none) (ht : (s.line l).test = some t) (hp : t.phase = .sending)
    (hd : t.delivered = false) : completeShift l (deliverLoop l s) = completeShift l s := by
  obtain ⟨counters, assembler, handed, delivers⟩ := deliverLoop_test hm ha hx ht hp hd
  have taken : ((deliverLoop l s).line l).test = some { t with delivered := true, handed } := by
    rw [delivers, State.line_onLine_same]
  have idle : ((deliverLoop l s).line l).exchange = none := by
    rw [delivers, State.line_onLine_same]
    exact hx
  have once : deliverLoop l (deliverLoop l s) = deliverLoop l s :=
    deliverLoop_of_none (Line.loopDelivery_of_delivered taken rfl)
  simp only [completeShift, hx, ht, idle, taken, testCharacterLeft, testFrameLeft, once]

end

/-- Settles O38. -/
theorem heldRequestsGoOn : Obligations.HeldRequestsGoOn := by
  intro s l r rest body line mode hline hr hi hroom hw ho goesOn
  refine ⟨fun x hx hp hm hle => ?_, fun t hx ht hm hp hk => ⟨fun hd => ?_, fun hd he => ?_⟩⟩
  · let parted : State := s.onLine l fun ln => { ln with ending := none }
    have hx' : (parted.line l).exchange = some x := by rw [State.line_onLine_same]; exact hx
    refine ⟨_, exec_shift (s := parted) (by rw [State.line_onLine_same]) hx' hp hle, ?_⟩
    -- The line with its driver released; the two ways from here differ in what the cut-off leaves aside.
    let released : State := (shiftWork x s).onLine l fun ln => { Line.shifted x ln with driver := false, ending := none }
    have inFlight : (released.line l).exchange = some x.shifted := by rw [State.line_onLine_same]; rfl
    have active : (released.line l).mode = .active := by
      rw [State.line_onLine_same, shiftWork_line]
      exact hm
    have again : (((shiftWork x parted).onLine l (Line.shifted x)).onLine l fun ln =>
          { ln with exchange := ln.exchange.map fun y => { y with phase := .guard } }).onLine l
            (fun ln => { ln with driver := false, ending := none })
        = released.onLine l (Line.carrying { x.shifted with phase := .guard }) := by
      rw [shiftWork_onLine, State.onLine_onLine, State.onLine_onLine, State.onLine_onLine, State.onLine_onLine]
      rfl
    obtain ⟨w, now⟩ : ∃ w, releaseDriver l (completeShift l s) = released.onLine l (Line.waiting w) := by
      rw [completeShift_of_exchange hx]
      exact releaseDriver_onLine ..
    have cut : cutOff l (releaseDriver l (completeShift l s))
        = (cutOff l (released.onLine l (Line.carrying { x.shifted with phase := .guard }))).onLine l (Line.waiting w) := by
      rw [now, cutOff_waiting inFlight, cutOff_guard inFlight]
    have activeNow : ((releaseDriver l (completeShift l s)).line l).mode = .active := by
      rw [now, State.line_onLine_same]
      exact active
    have activeAgain : ((released.onLine l (Line.carrying { x.shifted with phase := .guard })).line l).mode = .active := by
      rw [State.line_onLine_same]
      exact active
    refine driverRelease_goesOn hline hr hi hroom hw ho ?_ ?_ (.inl hm) ?_ (fun m hn hne => ?_) ?_
    · rw [completeShift_of_exchange hx, State.onLine_link, shiftWork_link]
    · rw [again, State.line_onLine_same, State.line_onLine_same]
      rfl
    · rw [again, activeAgain, hm]
    · rw [again]
      exact changeMode_of_cutOff activeNow activeAgain (by rw [← hm]; exact hne.symm) hn cut
    · rw [again]
      exact resetLineNow_of_cutOff activeNow activeAgain cut
  · have stands : (s.onLine l fun ln =>
          if t.charsSent = 36 then
            { ln with
              counters := { ln.counters with framesSent := min (ln.counters.framesSent + 1) 65535 }
              test := some { t with phase := .awaiting, charsSent := 37, framesSent := t.framesSent + 1 } }
          else { ln with test := some { t with phase := .awaiting, charsSent := t.charsSent + 1 } })
        = s.onLine l (Line.stood t) := by
      refine State.onLine_congr ?_
      by_cases h : t.charsSent = 36 <;> simp [Line.stood, LineTest.stood, LineCounters.countSent, bump, h]
    rw [stands]
    exact driverRelease_goesOn_of_test hline hr hi hroom hw ho hx ht hm hk hd
  · have ha : (s.line l).afterRestart = none := by
      rcases he with he | ⟨m, he⟩ <;> simp [Line.afterRestart, he]
    obtain ⟨row, named, takes⟩ := row_of_sending hm ha hx ht hp hd
    obtain ⟨counters, assembler, handed, delivers⟩ := deliverLoop_test hm ha hx ht hp hd
    refine ⟨row, deliverLoop l s, handed, named, takes, by rw [delivers, State.onLine_link],
      by rw [delivers, State.line_onLine_same], ?_⟩
    have ending : ((deliverLoop l s).line l).ending = (s.line l).ending := by
      rw [delivers, State.line_onLine_same]
    show execDriverRelease l s = execDriverRelease l (deliverLoop l s)
    rcases he with he | ⟨m, he⟩ <;>
      simp only [execDriverRelease, ending, he, completeShift_deliverLoop hm ha hx ht hp hd]

end Sys2Proof.Machine
end

end

/- These declarations too are elaborated one after another. -/
section
set_option Elab.async false

section
/-! SUPPORT. The books of the report queue (R146, R150): the reservations, the live records that hold them (R89, R93,
R94), and how many the work of the lines holds. What each shared operation on queue and pool does to them. -/

namespace Sys2Proof.Machine

/-! ### The books -/

/-- R93, R94, R146, R150: the live records are within their bounds, entries and reservations within 128, and the
reservations are those of the live records and k more. -/
structure State.Booked (k : Nat) (s : State) : Prop where
  reservations : s.queue.reservations = s.pool.records.length + k
  load : s.queue.entries.length + s.queue.reservations ≤ 128
  tags : TagsDistinct s
  size : s.pool.records.length ≤ 64
  share : ∀ n, (s.pool.records.filter (·.station == some n)).length ≤ 4

/-- From s to t, queue and pool have given up d of the reservations that the work of the lines holds, the books kept;
the lines stand as they did. -/
structure State.Settles (d : Nat) (s t : State) : Prop where
  books : ∀ k, s.Booked (k + d) → t.Booked k
  lines : ∀ l, t.line l = s.line l

section
variable {s t : State} {k d : Nat}

theorem State.Booked.of_shorter (h : s.Booked k) (hp : t.pool = s.pool)
    (hr : t.queue.reservations = s.queue.reservations) (he : t.queue.entries.length ≤ s.queue.entries.length) :
    t.Booked k where
  reservations := by rw [hr, hp]; exact h.reservations
  load := by rw [hr]; exact (Nat.add_le_add_right he _).trans h.load
  tags := by rw [TagsDistinct, hp]; exact h.tags
  size := hp ▸ h.size
  share := hp ▸ h.share

theorem State.Booked.of_eq (h : s.Booked k) (hp : t.pool = s.pool) (hq : t.queue = s.queue) : t.Booked k :=
  h.of_shorter hp (by rw [hq]) (by rw [hq])

/-! ### The report queue (R151 to R154) -/

theorem State.Booked.enqueue (h : s.Booked k) (hs : s.queue.hasSpace = true) (r : Report) : (enqueue r s).Booked k where
  reservations := h.reservations
  load := by
    have space := hasSpace_iff.1 hs
    simp only [enqueue_queue, List.length_append, List.length_singleton]
    omega
  tags := h.tags
  size := h.size
  share := h.share

theorem State.Booked.grant (h : s.Booked k) (hs : s.queue.hasSpace = true) : (grant s).Booked (k + 1) where
  reservations := congrArg (· + 1) h.reservations
  load := hasSpace_iff.1 hs
  tags := h.tags
  size := h.size
  share := h.share

theorem State.Booked.release (h : s.Booked (k + 1)) : (release s).Booked k where
  reservations := by
    simp only [release_queue, release_pool]
    have := h.reservations
    omega
  load := (Nat.add_le_add_left (Nat.sub_le ..) _).trans h.load
  tags := h.tags
  size := h.size
  share := h.share

/-- R152: the report takes the place of its reservation. -/
theorem State.Booked.convert (h : s.Booked (k + 1)) (r : Report) : (convert r s).Booked k where
  reservations := h.release.reservations
  load := by
    have held := h.reservations
    have load := h.load
    simp only [convert_queue, List.length_append, List.length_singleton]
    omega
  tags := h.tags
  size := h.size
  share := h.share

/-! ### The command pool -/

/-- Records that are changed in place, keeping tag and station. -/
theorem State.Booked.mapRecords (h : s.Booked k) {f : CommandRecord → CommandRecord} (ht : ∀ r, (f r).tag = r.tag)
    (hn : ∀ r, (f r).station = r.station) :
    (s.onPool fun p => { p with records := p.records.map f }).Booked k where
  reservations := by simpa using h.reservations
  load := h.load
  tags := by
    have tags : (s.pool.records.map f).map (·.tag) = s.pool.records.map (·.tag) := by
      rw [List.map_map]
      exact List.map_congr_left fun r _ => ht r
    exact (congrArg List.Nodup tags).mpr h.tags
  size := by simpa using h.size
  share n := by
    have stations : ((·.station == some n) ∘ f) = fun r : CommandRecord => r.station == some n :=
      funext fun r => by simp [hn]
    simpa [List.filter_map, stations] using h.share n

/-- R99: a live record completes. -/
theorem State.Booked.completeRecord (h : s.Booked k) {r : CommandRecord} (hr : r ∈ s.pool.records) (o : CommandOutcome)
    (data : List Byte) : (completeRecord r o data s).Booked k := by
  have sub : (s.pool.records.eraseP (·.tag == r.tag)).Sublist s.pool.records := List.eraseP_sublist
  have fewer : (s.pool.records.eraseP (·.tag == r.tag)).length = s.pool.records.length - 1 :=
    List.length_eraseP_of_mem hr (by simp)
  have live : 0 < s.pool.records.length := List.length_pos_of_mem hr
  have held := h.reservations
  have load := h.load
  refine ⟨?_, ?_, ?_, ?_, fun n => ?_⟩
  · simp only [completeRecord_queue, completeRecord_pool, fewer]
    omega
  · simp only [completeRecord_queue, List.length_append, List.length_singleton]
    omega
  · rw [TagsDistinct, completeRecord_pool]
    exact (sub.map _).nodup h.tags
  · rw [completeRecord_pool]
    exact sub.length_le.trans h.size
  · rw [completeRecord_pool]
    exact ((sub.filter _).length_le).trans (h.share n)

/-- R102: live records of distinct tags complete one after another. -/
theorem State.Booked.completeRecords (h : s.Booked k) {rs : List CommandRecord} (hr : ∀ r ∈ rs, r ∈ s.pool.records)
    (hd : (rs.map (·.tag)).Nodup) (o : CommandOutcome) : (completeRecords rs o s).Booked k := by
  unfold Machine.completeRecords
  induction rs generalizing s with
  | nil => exact h
  | cons r rs ih =>
    rw [List.map_cons, List.nodup_cons] at hd
    refine ih (h.completeRecord (hr r (List.mem_cons_self ..)) o []) (fun q hq => ?_) hd.2
    have differ : q.tag ≠ r.tag := fun e => hd.1 (e ▸ List.mem_map_of_mem (f := (·.tag)) hq)
    rw [completeRecord_pool, eraseP_tag_eq_filter _ h.tags]
    exact List.mem_filter.2 ⟨hr q (List.mem_cons_of_mem _ hq), by simpa using differ⟩

/-- R95, R96: a record of a free tag is accepted, its station having fewer than 4 and the pool fewer than 64. -/
theorem State.Booked.acceptRecord (h : s.Booked k) {tag : Half} {station : Option Nat} (l : LineId)
    (payload : List Byte) (ht : s.pool.find tag = none) (hn : ∀ n, station = some n → (s.pool.recordsOf n).length < 4)
    (hp : s.pool.records.length < 64) (hs : s.queue.hasSpace = true) :
    (acceptRecord tag station l payload s).Booked k := by
  have fresh : tag ∉ s.pool.records.map (·.tag) := by
    simpa [Pool.find] using ht
  refine ⟨?_, hasSpace_iff.1 hs, ?_, ?_, fun n => ?_⟩
  · have held := h.reservations
    simp only [Machine.acceptRecord, State.onPool_queue, grant_queue, State.onPool_pool, grant_pool, List.length_append,
      List.length_singleton]
    omega
  · simp only [TagsDistinct, Machine.acceptRecord, State.onPool_pool, grant_pool, List.map_append, List.map_singleton]
    exact h.tags.append (List.nodup_singleton tag) (by simpa using fresh)
  · simpa [Machine.acceptRecord] using hp
  · simp only [Machine.acceptRecord, State.onPool_pool, grant_pool, List.filter_append, List.length_append]
    by_cases hn' : station = some n
    · have room : (s.pool.records.filter (·.station == some n)).length < 4 := hn n hn'
      simp only [hn', beq_self_eq_true, List.filter_cons_of_pos, List.filter_nil, List.length_singleton]
      omega
    · simpa [hn'] using h.share n

/-! ### What settles -/

theorem State.Settles.refl (s : State) : s.Settles 0 s := ⟨fun _ h => h, fun _ => rfl⟩

theorem State.Settles.of_zero (h : s.Settles 0 t) (hd : d = 0) : s.Settles d t := hd ▸ h

/-- What follows keeps the books, and the lines as they stand. -/
theorem State.Settles.then (h : s.Settles d t) {u : State} (hb : ∀ k, t.Booked k → u.Booked k)
    (hl : ∀ l, u.line l = t.line l := by intro _; simp) : s.Settles d u :=
  ⟨fun k hk => hb k (h.books k hk), fun l => (hl l).trans (h.lines l)⟩

theorem State.Settles.of_eq (h : s.Settles d t) {u : State} (hp : u.pool = t.pool := by simp)
    (hq : u.queue = t.queue := by simp) (hl : ∀ l, u.line l = t.line l := by intro _; simp) : s.Settles d u :=
  h.then (fun _ hk => hk.of_eq hp hq) hl

theorem State.Settles.ite {p : Prop} [Decidable p] {u v : State} (hu : p → s.Settles d u) (hv : ¬p → s.Settles d v) :
    s.Settles d (if p then u else v) := by
  split
  next hp => exact hu hp
  next hp => exact hv hp

theorem State.Settles.onRecord (h : s.Settles d t) {tag : Half} {f : CommandRecord → CommandRecord}
    (ht : ∀ r, (f r).tag = r.tag := by intro _; rfl) (hn : ∀ r, (f r).station = r.station := by intro _; rfl) :
    s.Settles d (onRecord tag f t) :=
  h.then fun _ hk => hk.mapRecords (fun r => by split <;> simp [ht]) fun r => by split <;> simp [hn]

theorem State.Settles.onCarried (h : s.Settles d t) {x : Exchange} {f : CommandRecord → CommandRecord}
    (ht : ∀ r, (f r).tag = r.tag := by intro _; rfl) (hn : ∀ r, (f r).station = r.station := by intro _; rfl) :
    s.Settles d (onCarried x f t) := by
  unfold Machine.onCarried
  split
  · exact h
  · exact h.onRecord ht hn

theorem State.Settles.onNamed (h : s.Settles d t) {x : Exchange} {f : Station → Station} :
    s.Settles d (onNamed x f t) := by
  unfold Machine.onNamed
  split
  · exact h
  · exact h.of_eq

theorem State.Settles.completeRecord (h : s.Settles d t) {r : CommandRecord} (hr : r ∈ t.pool.records)
    {o : CommandOutcome} {data : List Byte} : s.Settles d (completeRecord r o data t) :=
  h.then fun _ hk => hk.completeRecord hr o data

theorem Pool.mem_of_find {p : Pool} {tag : Half} {r : CommandRecord} (h : p.find tag = some r) : r ∈ p.records :=
  List.mem_of_find?_eq_some h

theorem State.Settles.completeCarried (h : s.Settles d t) {x : Exchange} {o : CommandOutcome} {data : List Byte} :
    s.Settles d (completeCarried x o data t) := by
  unfold Machine.completeCarried
  split
  · exact h
  · split
    · exact h
    next hr => exact h.completeRecord (Pool.mem_of_find hr)

theorem State.Settles.giveBack (h : s.Settles d t) {x : Exchange} : s.Settles d (giveBack x t) := by
  unfold Machine.giveBack
  split
  · exact h
  · split
    · exact h
    next hr => exact .ite (fun _ => h.completeRecord (Pool.mem_of_find hr)) fun _ => h.onRecord

theorem State.Settles.acceptCommandBusy (h : s.Settles d t) {l : LineId} {x : Exchange} :
    s.Settles d (acceptCommandBusy l x t) := by
  unfold Machine.acceptCommandBusy
  split
  · exact h
  · split
    · exact h
    · exact .ite (fun _ => h.of_eq.completeCarried.onNamed) fun _ => h.of_eq.giveBack

end

end Sys2Proof.Machine
end

section
/-! SUPPORT. The work of the lines and the reservations that it holds (R41, R42, R52, R133, R139, R150): what keeps the
balance between them and the books, and the exchange records sound. -/

namespace Sys2Proof.Machine

/-! ### Exchange records -/

/-- R42, R52: the clauses of a sound exchange record in which its phase has no say. -/
def Exchange.Accounted (x : Exchange) : Prop :=
  ((x.kind = .poll ∨ x.kind = .probe) → x.station.isSome ∧ x.record = none)
    ∧ (x.holdsReservation = true ↔ (x.kind = .poll ∨ x.kind = .probe) ∧ x.outcome = none)

/-- R41: the clause of its phase. -/
def Exchange.Placed (x : Exchange) : Prop :=
  x.outcome.isSome → x.phase = .gap ∨ (x.kind = .broadcast ∧ x.phase = .guard)

/-- The reservations that an exchange holds. -/
def Exchange.units (x : Exchange) : Nat := if x.holdsReservation then 1 else 0

section
variable {x : Exchange}

theorem Exchange.sound_iff : x.Sound ↔ x.Accounted ∧ x.Placed := and_assoc.symm

theorem Exchange.placed_of_undecided (h : x.outcome = none) : x.Placed := by simp [Exchange.Placed, h]

theorem Exchange.Placed.undecided (h : x.Placed) (hg : x.phase ≠ .gap) (hb : x.kind = .broadcast → x.phase ≠ .guard) :
    x.outcome = none := by
  by_contra ho
  rcases h (Option.isSome_iff_ne_none.2 ho) with hp | ⟨hk, hp⟩
  · exact hg hp
  · exact hb hk hp

theorem Exchange.Accounted.units_eq_zero (h : x.Accounted)
    (hz : x.outcome.isSome ∨ (x.kind ≠ .poll ∧ x.kind ≠ .probe)) :
    x.units = 0 := by
  refine if_neg fun hr => ?_
  obtain ⟨hk, ho⟩ := h.2.1 hr
  rcases hz with hz | ⟨hp, hq⟩
  · simp [ho] at hz
  · exact hk.elim hp hq

theorem Exchange.Accounted.units_eq_one (h : x.Accounted) (hk : x.kind = .poll ∨ x.kind = .probe)
    (ho : x.outcome = none) :
    x.units = 1 := if_pos (h.2.2 ⟨hk, ho⟩)

theorem Exchange.Accounted.decided (h : x.Accounted) (o : ExchangeOutcome) : (x.decided o).Accounted :=
  ⟨fun hk => ⟨(h.1 hk).1, rfl⟩, by simp [Exchange.decided]⟩

end

/-! ### The balance of a state -/

/-- The exchange record in flight, if there is one, is accounted for. -/
def Line.Accounted (ln : Line) : Prop := ∀ x, ln.exchange = some x → x.Accounted

/-- The exchange in flight, if there is one, is in a phase that goes with its outcome. -/
def Line.Placed (ln : Line) : Prop := ∀ x, ln.exchange = some x → x.Placed

/-- R150: the books agree with what the lines' work holds. -/
def State.Balanced (s : State) : Prop := s.Booked (s.lineA.holders + s.lineB.holders)

/-- The reservations are sound, but that the exchange of line l may be in a phase that does not go with its outcome:
while a character completes at an ending, before the exchange is cut off (R25, R65). -/
structure State.ReservedBut (l : LineId) (s : State) : Prop where
  balanced : s.Balanced
  accounted : ∀ m, (s.line m).Accounted
  placed : ∀ m ≠ l, (s.line m).Placed

theorem State.reserved_iff {s : State} :
    s.Reserved ↔ s.Balanced ∧ (∀ l, (s.line l).Accounted) ∧ ∀ l, (s.line l).Placed := by
  constructor
  · rintro ⟨hr, hl, ht, hp, hn, hx⟩
    have sound (l x) (h : (s.line l).exchange = some x) := Exchange.sound_iff.1 (hx l x h)
    exact ⟨⟨hr.trans (Nat.add_assoc ..), hl, ht, hp, hn⟩, fun l x h => (sound l x h).1, fun l x h => (sound l x h).2⟩
  · rintro ⟨h, ha, hp⟩
    exact ⟨h.reservations.trans (Nat.add_assoc ..).symm, h.load, h.tags, h.size, h.share,
      fun l x hx => Exchange.sound_iff.2 ⟨ha l x hx, hp l x hx⟩⟩

theorem State.balanced_iff {s : State} (l : LineId) :
    s.Balanced ↔ s.Booked ((s.line l).holders + (s.line l.other).holders) := by
  cases l
  · rfl
  · exact iff_of_eq (congrArg (State.Booked · s) (Nat.add_comm ..))

section
variable {s t u : State} {l : LineId} {x : Exchange} {d : Nat}

theorem State.Reserved.but (h : s.Reserved) (l : LineId) : s.ReservedBut l := by
  obtain ⟨hb, ha, hp⟩ := State.reserved_iff.1 h
  exact ⟨hb, ha, fun m _ => hp m⟩

theorem State.ReservedBut.reserved (h : s.ReservedBut l) (hp : (s.line l).Placed) : s.Reserved :=
  State.reserved_iff.2 ⟨h.balanced, h.accounted, fun m => if hm : m = l then hm ▸ hp else h.placed m hm⟩

theorem State.Reserved.accounted (h : s.Reserved) (hx : (s.line l).exchange = some x) : x.Accounted :=
  (h.but l).accounted l x hx

theorem State.Reserved.placed (h : s.Reserved) (hx : (s.line l).exchange = some x) : x.Placed :=
  (State.reserved_iff.1 h).2.2 l x hx

/-! ### Even changes -/

/-- A change that leaves queue, pool and the lines' work in the balance that they were in, and the exchange records as
sound as they were. -/
structure State.Even (s t : State) : Prop where
  balanced : s.Balanced → t.Balanced
  accounted : ∀ l, (s.line l).Accounted → (t.line l).Accounted
  placed : ∀ l, (s.line l).Placed → (t.line l).Placed

theorem State.Even.refl (s : State) : s.Even s := ⟨id, fun _ => id, fun _ => id⟩

theorem State.Even.trans (h : s.Even t) (k : t.Even u) : s.Even u :=
  ⟨k.balanced ∘ h.balanced, fun l => k.accounted l ∘ h.accounted l, fun l => k.placed l ∘ h.placed l⟩

theorem State.Even.reserved (h : s.Even t) (hs : s.Reserved) : t.Reserved := by
  obtain ⟨hb, ha, hp⟩ := State.reserved_iff.1 hs
  exact State.reserved_iff.2 ⟨h.balanced hb, fun l => h.accounted l (ha l), fun l => h.placed l (hp l)⟩

theorem State.Even.but (h : s.Even t) (hs : s.ReservedBut l) : t.ReservedBut l :=
  ⟨h.balanced hs.balanced, fun m => h.accounted m (hs.accounted m), fun m hm => h.placed m (hs.placed m hm)⟩

/-- What a change of line l, keeping P of it, keeps of every line. -/
theorem State.onLine_keeps {P : Line → Prop} {f : Line → Line} (hl : ∀ m, u.line m = t.line m)
    (hf : P (t.line l) → P (f (t.line l))) (m : LineId) : P (t.line m) → P ((u.onLine l f).line m) := by
  rw [State.line_onLine, hl]
  split
  next hm => exact hm ▸ hf
  next => exact id

theorem State.Balanced.settled (hs : t.Settles d u) {f : Line → Line}
    (hh : (f (t.line l)).holders + d = (t.line l).holders) (h : t.Balanced) : (u.onLine l f).Balanced := by
  have books := (State.balanced_iff l).1 h
  rw [← hh, Nat.add_right_comm] at books
  rw [State.balanced_iff l, State.line_onLine_same, State.line_onLine_other, hs.lines, hs.lines]
  exact (hs.books _ books).of_eq (State.onLine_pool ..) (State.onLine_queue ..)

/-- The work of line l settles d of the reservations that it holds, and then no longer holds them. -/
theorem State.Even.settled (h : s.Even t) (hs : t.Settles d u) {f : Line → Line}
    (hh : (f (t.line l)).holders + d = (t.line l).holders)
    (ha : (t.line l).Accounted → (f (t.line l)).Accounted := by exact id)
    (hp : (t.line l).Placed → (f (t.line l)).Placed := by exact id) : s.Even (u.onLine l f) :=
  h.trans ⟨.settled hs hh, State.onLine_keeps hs.lines ha, State.onLine_keeps hs.lines hp⟩

/-- The work of line l is granted a reservation, and then holds it. -/
theorem State.Even.granted (h : s.Even t) (hb : ∀ k, t.Booked k → u.Booked (k + 1)) (hl : ∀ m, u.line m = t.line m)
    {f : Line → Line} (hh : (f (t.line l)).holders = (t.line l).holders + 1)
    (ha : (t.line l).Accounted → (f (t.line l)).Accounted := by exact id)
    (hp : (t.line l).Placed → (f (t.line l)).Placed := by exact id) : s.Even (u.onLine l f) := by
  refine h.trans ⟨fun balanced => ?_, State.onLine_keeps hl ha, State.onLine_keeps hl hp⟩
  have books := hb _ ((State.balanced_iff l).1 balanced)
  rw [State.balanced_iff l, State.line_onLine_same, State.line_onLine_other, hl, hl, hh, Nat.add_right_comm]
  exact books.of_eq (State.onLine_pool ..) (State.onLine_queue ..)

/-- A line changes, holding as many reservations as before. -/
theorem State.Even.onLine (h : s.Even t) {f : Line → Line} (hh : (f (t.line l)).holders = (t.line l).holders := by rfl)
    (ha : (t.line l).Accounted → (f (t.line l)).Accounted := by exact id)
    (hp : (t.line l).Placed → (f (t.line l)).Placed := by exact id) : s.Even (t.onLine l f) :=
  h.settled (State.Settles.refl t) hh ha hp

theorem State.Settles.even (h : s.Settles 0 t) : s.Even t := by
  refine ⟨fun hb => ?_, fun l => ?_, fun l => ?_⟩
  · rw [State.balanced_iff .a, h.lines, h.lines]
    exact h.books _ ((State.balanced_iff .a).1 hb)
  · rw [h.lines]
    exact id
  · rw [h.lines]
    exact id

/-- What changes queue and pool alone, keeping the books. -/
theorem State.Even.then (h : s.Even t) (hb : ∀ k, t.Booked k → u.Booked k)
    (hl : ∀ l, u.line l = t.line l := by intro _; simp) : s.Even u := h.trans ((State.Settles.refl t).then hb hl).even

/-- What changes nothing of queue, pool and lines. -/
theorem State.Even.of_eq (h : s.Even t) (hp : u.pool = t.pool := by simp) (hq : u.queue = t.queue := by simp)
    (hl : ∀ l, u.line l = t.line l := by intro _; simp) : s.Even u := h.then (fun _ hk => hk.of_eq hp hq) hl

theorem State.Even.ite {p : Prop} [Decidable p] {v : State} (hu : p → s.Even u) (hv : ¬p → s.Even v) :
    s.Even (if p then u else v) := by
  split
  next hp => exact hu hp
  next hp => exact hv hp

/-! ### Stations and records -/

theorem State.Even.setStation (h : s.Even t) {n : Nat} {e : Option Station} : s.Even (t.setStation n e) := h.of_eq

theorem State.Even.onStation (h : s.Even t) {n : Nat} {f : Station → Station} : s.Even (t.onStation n f) := h.of_eq

theorem State.Even.joinProbeList (h : s.Even t) {n : Nat} : s.Even (joinProbeList l n t) := h.onLine

theorem leaveProbeLists_eq_onLine (n : Nat) (s : State) :
    leaveProbeLists n s = (s.onLine .a fun ln => { ln with probeList := ln.probeList.filter (· != n) }).onLine .b
      fun ln => { ln with probeList := ln.probeList.filter (· != n) } := rfl

theorem State.Even.leaveProbeLists (h : s.Even t) {n : Nat} : s.Even (leaveProbeLists n t) := by
  rw [leaveProbeLists_eq_onLine]
  exact h.onLine.onLine

theorem State.Even.moveRecords (h : s.Even t) {n : Nat} {m : LineId} : s.Even (moveRecords n m t) :=
  h.then (fun _ hk => hk.mapRecords (fun r => by split <;> rfl) fun r => by split <;> rfl) fun _ => rfl

/-- R102: records of a station complete. -/
theorem State.Even.completeSome (h : s.Even t) {n : Nat} {rs : List CommandRecord}
    (hr : rs.Sublist (t.pool.recordsOf n)) {o : CommandOutcome} : s.Even (completeRecords rs o t) := by
  have sub : rs.Sublist t.pool.records := hr.trans List.filter_sublist
  exact h.then fun _ hk => hk.completeRecords (fun _ hq => sub.subset hq) ((sub.map _).nodup hk.tags) o

theorem State.Even.completeAllOf (h : s.Even t) {n : Nat} {o : CommandOutcome} : s.Even (completeAllOf n o t) :=
  h.completeSome (List.Sublist.refl _)

theorem State.Even.resyncRelease (h : s.Even t) {n : Nat} : s.Even (resyncRelease n t) :=
  h.completeSome List.filter_sublist

theorem State.Even.enterProbing (h : s.Even t) {n : Nat} : s.Even (enterProbing n t) := by
  unfold Machine.enterProbing
  split
  · exact h
  · exact h.setStation.leaveProbeLists.joinProbeList

theorem State.Even.disableTakesEffect (h : s.Even t) {n : Nat} : s.Even (disableTakesEffect n t) :=
  h.onStation.leaveProbeLists.completeAllOf.onStation

theorem State.Even.resolveDisable (h : s.Even t) {n : Nat} : s.Even (resolveDisable n t) := by
  unfold Machine.resolveDisable
  split
  · exact h
  · exact .ite (fun _ => h.disableTakesEffect) fun _ => h

theorem State.Even.stationAnswered (h : s.Even t) {n : Nat} : s.Even (stationAnswered n t) := by
  unfold Machine.stationAnswered
  split
  · exact h
  · split
    · exact h
    · exact h
    · exact h.setStation
    · exact h.leaveProbeLists.onStation
    · exact h.leaveProbeLists.onStation

theorem State.Even.loseStation (h : s.Even t) {n : Nat} : s.Even (loseStation n t) := by
  refine State.Even.onStation (State.Even.completeAllOf ?_)
  unfold enterOffline
  split
  · exact h
  · exact .ite (fun _ => h.setStation) fun _ => h.setStation.leaveProbeLists.joinProbeList

theorem State.Even.failOver (h : s.Even t) {n : Nat} : s.Even (failOver n t) := by
  unfold Machine.failOver
  split
  · exact h
  · exact h.leaveProbeLists.onStation.resyncRelease.moveRecords.enterProbing.onStation

theorem State.Even.compareThreshold (h : s.Even t) {n : Nat} : s.Even (compareThreshold n t) := by
  unfold Machine.compareThreshold
  split
  · exact h
  · exact .ite (fun _ => .ite (fun _ => h.failOver) fun _ => h.loseStation) fun _ => h

theorem State.Even.stationFailed (h : s.Even t) {n : Nat} : s.Even (stationFailed n t) := by
  unfold Machine.stationFailed
  split
  · exact h
  · dsimp only
    split
    · exact h
    · exact h.setStation.compareThreshold
    · exact h.setStation.compareThreshold
    · exact h.setStation.compareThreshold
    · exact h.setStation

theorem State.Even.resetStation (h : s.Even t) {n : Nat} : s.Even (resetStation l t n) := by
  unfold Machine.resetStation
  split
  · exact h
  · exact .ite (fun _ => h.resyncRelease.enterProbing.onStation) fun _ => h

theorem State.Even.foldl_resetStation (h : s.Even t) (ns : List Nat) :
    s.Even (ns.foldl (Machine.resetStation l) t) := by
  induction ns generalizing t with
  | nil => exact h
  | cons n ns ih => exact ih h.resetStation

end

end Sys2Proof.Machine
end

section
/-! SUPPORT. The work of a line: scans, line tests, exchanges and what the receiver takes. Each keeps the reservations
sound; most are even, whatever the state. -/

namespace Sys2Proof.Machine

section
variable {s t u : State} {l : LineId} {x : Exchange}

/-! ### Counters, notice, assembler, capture -/

theorem State.Even.countLine (h : s.Even t) {f : LineCounters → LineCounters} : s.Even (countLine l f t) := h.onLine

theorem State.Even.raiseLineNotice (h : s.Even t) {c : LineCause} : s.Even (raiseLineNotice l c t) := h.onLine

theorem State.Even.endAssembly (h : s.Even t) : s.Even (endAssembly l t) := by
  rw [endAssembly_eq]
  exact h.onLine

theorem State.Even.captureFrame (h : s.Even t) {u : HandedUp} : s.Even (captureFrame l u t) :=
  .ite (fun hs => h.then fun _ hk => hk.enqueue hs _) fun _ => h.countLine

/-! ### Scans and line tests -/

theorem Line.holders_eq (ln : Line) :
    ln.holders = (if ln.scan.isSome then 1 else 0) + (if ln.test.isSome then 1 else 0)
      + ln.exchange.elim 0 Exchange.units := by
  unfold Line.holders Line.exchangeHolds
  cases ln.exchange <;> rfl

/-- R137: the scan's reservation becomes its SCAN_DONE report. -/
theorem State.Even.endScan (h : s.Even t) {status : ScanStatus} : s.Even (endScan l status t) := by
  unfold Machine.endScan
  split
  · exact h
  next sc hs =>
    refine h.settled (d := 1) ⟨fun _ hk => hk.convert _, fun _ => convert_line ..⟩ ?_
    simp only [Line.holders_eq, hs, Option.isSome_none, Option.isSome_some, Bool.false_eq_true, if_true, if_false]
    omega

theorem State.Even.rollCallResult (h : s.Even t) {present : Bool} : s.Even (rollCallResult l present t) := by
  unfold Machine.rollCallResult
  split
  · exact h
  next sc hs =>
    refine .ite (fun _ => h) fun _ => ?_
    have told (responders : List Nat) : s.Even (t.onLine l fun ln =>
        { ln with scan := some { sc with rollCall := false, responders } }) :=
      h.onLine (by simp [Line.holders_eq, hs])
    exact .ite (fun _ => (told _).endScan) fun _ => told _

/-- R141: the line test's reservation becomes its TEST_DONE report. -/
theorem State.Even.endTest (h : s.Even t) {status : TestStatus} : s.Even (endTest l status t) := by
  unfold Machine.endTest
  split
  · exact h
  next test ht =>
    have ht : ((Machine.endAssembly l t).line l).test = some test := by
      rw [endAssembly_eq, State.line_onLine_same]
      exact ht
    refine State.Even.raiseLineNotice
      (h.endAssembly.settled (d := 1) ⟨fun _ hk => hk.convert _, fun _ => convert_line ..⟩ ?_)
    simp only [Line.holders_eq, ht, Option.isSome_none, Option.isSome_some, Bool.false_eq_true, if_true, if_false]
    omega

/-- The line test goes on. -/
theorem State.Even.onTest (h : s.Even t) {f : Line → Option LineTest}
    (hf : (f (t.line l)).isSome = (t.line l).test.isSome := by simp) :
    s.Even (t.onLine l fun ln => { ln with test := f ln }) :=
  h.onLine (by simp [Line.holders_eq, hf])

theorem State.Even.judgeTest (h : s.Even t) {matched : Bool} : s.Even (judgeTest l matched t) := by
  unfold Machine.judgeTest
  split
  · exact h
  next test ht =>
    have goes (test : LineTest) : (t.line l).test.isSome = (some test).isSome := by rw [ht]; rfl
    exact .ite (fun _ => (h.onTest (goes _).symm).endTest) fun _ => h.onTest (goes _).symm

theorem State.Even.testHandedUp (h : s.Even t) {up : HandedUp} : s.Even (testHandedUp l up t) := by
  unfold Machine.testHandedUp
  split
  · exact h
  next ht =>
    split
    · exact h.onTest (by simp [ht])
    · exact h.judgeTest
    · exact h

theorem State.Even.testAwaits (h : s.Even t) : s.Even (testAwaits l t) := by
  unfold Machine.testAwaits
  dsimp only
  split
  · exact h.onTest
  · exact h.onTest.judgeTest

/-! ### The exchange record -/

/-- The record of the exchange in flight changes. -/
theorem State.Even.onExchange (h : s.Even t) {f : Exchange → Exchange}
    (hu : ∀ x, (f x).units = x.units := by intro _; rfl)
    (ha : ∀ x, x.Accounted → (f x).Accounted := by exact fun _ => id)
    (hp : ∀ x, x.Placed → (f x).Placed := by exact fun _ => id) : s.Even (onExchange l f t) := by
  refine h.onLine ?_ (fun k y hy => ?_) fun k y hy => ?_
  · simp only [Line.holders_eq]
    cases (t.line l).exchange with
    | none => rfl
    | some x => simp [hu]
  · obtain ⟨x, hx, rfl⟩ := Option.map_eq_some_iff.1 hy
    exact ha x (k x hx)
  · obtain ⟨x, hx, rfl⟩ := Option.map_eq_some_iff.1 hy
    exact hp x (k x hx)

theorem State.Even.onCarried (h : s.Even t) {f : CommandRecord → CommandRecord}
    (ht : ∀ r, (f r).tag = r.tag := by intro _; rfl) (hn : ∀ r, (f r).station = r.station := by intro _; rfl) :
    s.Even (onCarried x f t) := h.trans ((State.Settles.refl t).onCarried ht hn).even

theorem State.Even.onNamed (h : s.Even t) {f : Station → Station} : s.Even (onNamed x f t) :=
  h.trans (State.Settles.refl t).onNamed.even

theorem State.Even.completeCarried (h : s.Even t) {o : CommandOutcome} {d : List Byte} :
    s.Even (completeCarried x o d t) := h.trans (State.Settles.refl t).completeCarried.even

theorem Line.holders_gapped (x : Exchange) (ln : Line) :
    (ln.gapped x).holders = ({ ln with exchange := some x } : Line).holders := by
  simp only [Line.holders_eq, Line.gapped]
  rfl

/-- R48: GAP goes with every outcome. -/
theorem State.Even.enterGap (h : s.Even t) : s.Even (enterGap l t) := by
  cases hx : (t.line l).exchange with
  | none =>
    refine h.onLine ?_ (fun _ y hy => ?_) fun _ y hy => ?_
    · simp only [Line.holders_eq, hx, Option.map_none]
    · simp [hx] at hy
    · simp [hx] at hy
  | some x =>
    rw [enterGap_eq hx]
    refine h.onLine ?_ (fun k y hy => ?_) fun _ y hy => ?_
    · rw [Line.holders_gapped, ← hx]
    · cases hy
      exact k x hx
    · cases hy
      exact fun _ => .inl rfl

/-- R48, R52: the work of an exchange is settled, its outcome decided, and GAP begins. -/
theorem State.Even.decided (h : s.Even t) (hx : (t.line l).exchange = some x) (hu : t.Settles x.units u)
    (o : ExchangeOutcome) : s.Even (Machine.enterGap l (decideOutcome l o u)) := by
  rw [enterGap_decided ((hu.lines l ▸ hx))]
  refine h.settled hu ?_ (fun k y hy => ?_) fun _ y hy => ?_
  · simp only [Line.holders_eq, hx]
    rfl
  · cases hy
    exact (k x hx).decided o
  · cases hy
    exact fun _ => .inl rfl

/-- R64: the work of an exchange is settled, and its record emptied. -/
theorem State.Even.emptied (h : s.Even t) (hx : (t.line l).exchange = some x) (hu : t.Settles x.units u) :
    s.Even (u.onLine l Line.emptied) := by
  refine h.settled hu ?_ (fun _ y hy => ?_) fun _ y hy => ?_
  · simp only [Line.holders_eq, Line.emptied, hx]
    rfl
  · cases hy
  · cases hy

/-- R64: the end of an exchange whose work is settled. -/
theorem endExchange_even (l : LineId) (s : State) : (s.onLine l Line.emptied).Even (endExchange l s) := by
  unfold endExchange
  split
  next hx =>
    rw [State.onLine_emptied hx]
    exact .refl s
  next x hx =>
    dsimp only
    have empty : (s.onLine l Line.emptied).Even (s.onLine l fun ln => { ln with exchange := none }) := .refl _
    split
    · exact empty
    · refine State.Even.resolveDisable ?_
      cases x.result with
      | answered => exact empty.stationAnswered
      | failed => exact empty.stationFailed
      | nothing => exact empty

/-! ### Attempts that fail (R53, R54, R60, R61) -/

theorem releaseHeld_settles (x : Exchange) (s : State) : s.Settles x.units (releaseHeld x s) := by
  unfold releaseHeld Exchange.units
  split
  · exact ⟨fun _ hk => hk.release, fun _ => release_line ..⟩
  · exact .refl s

/-- R61: what every attempt's failure settles. -/
theorem State.Even.exchangeFailed {y : Exchange} (h : s.Even t) (ha : x.Accounted)
    (hy : (t.line l).exchange = some y) (hu : y.units = x.units) :
    s.Even (Machine.enterGap l (exchangeFailed l x t)) := by
  refine h.decided hy ?_ .failed
  rw [hu]
  cases hk : x.kind with
  | poll => exact (releaseHeld_settles x t).onNamed
  | probe => exact releaseHeld_settles x t
  | command =>
    exact .of_zero (State.Settles.refl t).completeCarried (ha.units_eq_zero (.inr (by simp [hk])))
  | broadcast =>
    exact .of_zero (.refl t) (ha.units_eq_zero (.inr (by simp [hk])))
  | rollCall =>
    exact .of_zero (.refl t) (ha.units_eq_zero (.inr (by simp [hk])))

theorem recordFailedAttempt_exchange (hx : (s.line l).exchange = some x) (k : FailureKind) :
    ((recordFailedAttempt l x k s).line l).exchange = some { x with lastFailure := some k } := by
  unfold recordFailedAttempt countLine
  rw [State.line_onLine_same, onNamed_line, onCarried_line, onExchange_eq _ hx, State.line_onLine_same]

theorem State.Reserved.failAttempt (h : s.Reserved) {k : FailureKind} : (failAttempt l k s).Reserved := by
  unfold Machine.failAttempt
  split
  · exact h
  next x hx =>
    have recorded : s.Even (recordFailedAttempt l x k s) :=
      (State.Even.refl s).onExchange.onCarried.onNamed.countLine
    dsimp only
    split
    · exact recorded.enterGap.reserved h
    · exact (recorded.exchangeFailed (h.accounted hx) (recordFailedAttempt_exchange hx k) rfl).reserved h

/-- R60: a ROLL_CALL holds no reservation. -/
theorem State.Reserved.endRollCall (h : s.Reserved) (hx : (s.line l).exchange = some x) (hk : x.kind = .rollCall)
    {present : Bool} : (endRollCall l present s).Reserved := by
  have result : s.Even (Machine.rollCallResult l present s) := (State.Even.refl s).rollCallResult
  refine (result.decided ((rollCallResult_exchange ..).trans hx) ?_ _).reserved h
  exact .of_zero (.refl _) ((h.accounted hx).units_eq_zero (.inr (by simp [hk])))

/-! ### Replies that are accepted (R56 to R58, R62) -/

/-- R56, R58: the reservation of a POLL or PROBE becomes its STATION_DATA report. -/
theorem acceptData_settles (ha : x.Accounted) (hk : x.kind = .poll ∨ x.kind = .probe) (ho : x.outcome = none)
    (data : List Byte) (s : State) : s.Settles x.units (acceptData x data s) := by
  obtain ⟨n, hn⟩ := Option.isSome_iff_exists.1 (ha.1 hk).1
  unfold acceptData
  rw [ha.units_eq_one hk ho, hn]
  have filled : s.Settles 1 (convert (.stationData n data) s) := ⟨fun _ h => h.convert _, fun _ => convert_line ..⟩
  exact filled.of_eq

theorem acceptPoll_settles (ha : x.Accounted) (hk : x.kind = .poll) (ho : x.outcome = none) (k : ReplyKind)
    (data : List Byte) (s : State) : s.Settles x.units (acceptPoll l x k data s) := by
  refine State.Settles.onNamed ?_
  split
  · exact acceptData_settles ha (.inl hk) ho data s
  · exact (releaseHeld_settles x s).onNamed
  · exact (releaseHeld_settles x s).onNamed

theorem acceptProbe_settles (ha : x.Accounted) (hk : x.kind = .probe) (ho : x.outcome = none) (k : ReplyKind)
    (data : List Byte) (s : State) : s.Settles x.units (acceptProbe l x k data s) := by
  unfold acceptProbe
  split
  · exact acceptData_settles ha (.inr hk) ho data s
  · exact (releaseHeld_settles x s).onNamed
  · exact (releaseHeld_settles x s).onNamed

theorem State.Reserved.acceptReply (h : s.Reserved) (hx : (s.line l).exchange = some x) (ho : x.outcome = none)
    {k : ReplyKind} {data : List Byte} : (enterGap l (acceptReply l x k data s)).Reserved := by
  have ha := h.accounted hx
  have none (hp : x.kind ≠ .poll) (hq : x.kind ≠ .probe) : x.units = 0 := ha.units_eq_zero (.inr ⟨hp, hq⟩)
  refine ((State.Even.refl s).decided hx ?_ (.accepted k)).reserved h
  split
  next hk => exact acceptPoll_settles ha hk ho _ data s
  next hk => exact acceptProbe_settles ha hk ho _ data s
  all_goals rw [none (by simp [*]) (by simp [*])]
  · exact (State.Settles.refl s).acceptCommandBusy
  · exact (State.Settles.refl s).completeCarried.onNamed
  · exact (State.Settles.refl s).completeCarried.onNamed
  · exact .refl s
  · exact .refl s

theorem State.Reserved.judgeReply (h : s.Reserved) {up : HandedUp} : (judgeReply l up s).Reserved := by
  unfold Machine.judgeReply
  split
  · exact h
  next x hx =>
    split
    · exact h
    next hp =>
      have hp : x.phase = .receive := Decidable.not_not.1 hp
      have ho : x.outcome = none := (h.placed hx).undecided (by simp [hp]) (by simp [hp])
      split
      next hk => exact h.endRollCall hx hk
      · exact h.failAttempt
      · exact h.failAttempt
      · exact h.acceptReply hx ho

/-! ### The receiver -/

theorem State.Reserved.handUp (h : s.Reserved) {up : HandedUp} : (handUp l up s).Reserved := by
  unfold Machine.handUp
  split
  · exact h
  · exact h.judgeReply
  · exact (State.Even.refl s).captureFrame.reserved h
  · exact (State.Even.refl s).testHandedUp.reserved h

theorem State.Reserved.abandonFrame (h : s.Reserved) {cs : List Byte} {fe : Bool} {c : AbandonCause} :
    (abandonFrame l cs fe c s).Reserved :=
  State.Reserved.handUp (State.Even.reserved (State.Even.refl s).onLine h)

theorem State.Even.receiveCharacter (h : s.Even t) {fe : Bool} : s.Even (receiveCharacter l fe t) :=
  h.onLine (by simp [Line.holders_eq, Line.testHeard_isSome])

theorem State.Even.receiveStray (h : s.Even t) {fe : Bool} : s.Even (receiveStray l fe t) :=
  h.onLine (by simp [Line.holders_eq, Line.testHeard_isSome])

theorem State.Even.holdPartial (h : s.Even t) {cs : List Byte} {fe : Bool} : s.Even (holdPartial l cs fe t) := h.onLine

/-- R46: an exchange that awaits its reply has no outcome, so RECEIVE goes with it as well. -/
theorem State.Even.beginReply (h : s.Even t) : s.Even (beginReply l t) := by
  refine h.onExchange (fun x => ?_) (fun x => ?_) fun x => ?_
  · split <;> rfl
  · split <;> exact id
  · split
    next hp => exact fun k => Exchange.placed_of_undecided (k.undecided (by simp [hp]) (by simp [hp]))
    · exact id

theorem State.Reserved.takeCharacter (h : s.Reserved) {k : CharacterClass} {b : Byte} {fe : Bool} :
    (takeCharacter l k b fe s).Reserved := by
  have received : s.Even (Machine.receiveCharacter l fe s) := (State.Even.refl s).receiveCharacter
  cases k with
  | stray => exact (State.Even.refl s).receiveStray.reserved h
  | begins =>
    unfold Machine.takeCharacter beginFrame
    dsimp only
    split
    · exact received.holdPartial.beginReply.reserved h
    · exact (received.countLine.holdPartial.reserved h).handUp
  | added => exact received.holdPartial.reserved h
  | tooLong => exact (received.reserved h).abandonFrame
  | completes => exact State.Reserved.handUp (State.Even.reserved received.onLine h)

theorem State.Reserved.characterEvent (h : s.Reserved) {k : CharacterClass} {b : Byte} {mark fe : Bool} :
    (characterEvent l k b mark fe s).Reserved := by
  unfold Machine.characterEvent
  split
  · exact h.takeCharacter
  · exact h

theorem State.Reserved.deliverLoop (h : s.Reserved) : (deliverLoop l s).Reserved := by
  unfold Machine.deliverLoop
  split
  · exact h
  · split
    · exact h
    · exact h.takeCharacter

/-! ### The transmitter -/

theorem State.Reserved.testCharacterLeft (h : s.Reserved) : (testCharacterLeft l s).Reserved :=
  (State.Even.refl _).onTest.reserved h.deliverLoop

theorem State.Reserved.testFrameLeft (h : s.Reserved) : (testFrameLeft l s).Reserved :=
  State.Even.reserved (State.Even.refl _).onTest.countLine h.deliverLoop

/-! ### The frame that leaves, and GUARD (R44, R45) -/

theorem shiftWork_settles (x : Exchange) (s : State) : s.Settles 0 (shiftWork x s) :=
  .ite (fun _ => .refl s) fun _ =>
    .ite (fun _ => (State.Settles.refl s).onCarried.completeCarried) fun _ => (State.Settles.refl s).onCarried

theorem Exchange.Accounted.shifted (h : x.Accounted) : x.shifted.Accounted ∧ x.shifted.units = x.units := by
  unfold Exchange.shifted
  split
  · exact ⟨h, rfl⟩
  · dsimp only
    split
    next hb => exact ⟨h.decided .sent, (h.units_eq_zero (.inr (by simp [hb]))).symm⟩
    next => exact ⟨h, rfl⟩

theorem Exchange.Placed.shifted (h : x.Placed) (hp : x.phase = .transmit) : x.shifted.Placed := by
  have ho : x.outcome = none := h.undecided (by simp [hp]) (by simp [hp])
  unfold Exchange.shifted
  split
  · exact h
  · dsimp only
    split
    next hb => exact fun _ => .inr ⟨hb, rfl⟩
    next => exact Exchange.placed_of_undecided ho

/-- R44: a character leaves, in whatever phase the exchange is. -/
theorem State.ReservedBut.shifted (h : s.ReservedBut l) (hx : (s.line l).exchange = some x) :
    ((shiftWork x s).onLine l (Line.shifted x)).ReservedBut l := by
  have settles := shiftWork_settles x s
  obtain ⟨accounted, units⟩ := (h.accounted l x hx).shifted
  have line : ((shiftWork x s).onLine l (Line.shifted x)).line l = Line.shifted x (s.line l) := by
    rw [State.line_onLine_same, settles.lines]
  refine ⟨?_, fun m => ?_, fun m hm => ?_⟩
  · refine State.Balanced.settled settles ?_ h.balanced
    simp only [Line.holders_eq, Line.shifted, hx]
    exact congrArg _ units
  · refine State.onLine_keeps settles.lines (fun _ y hy => ?_) m (h.accounted m)
    cases hy
    exact accounted
  · rw [State.line_onLine, if_neg hm, settles.lines]
    exact h.placed m hm

theorem State.Reserved.shifted (h : s.Reserved) (hx : (s.line l).exchange = some x) (hp : x.phase = .transmit) :
    ((shiftWork x s).onLine l (Line.shifted x)).Reserved := by
  refine ((h.but l).shifted hx).reserved fun y hy => ?_
  rw [State.line_onLine_same] at hy
  cases hy
  exact (h.placed hx).shifted hp

/-- R25, R65: the character in the shift path completes. -/
theorem State.Reserved.completeShift (h : s.Reserved) : (completeShift l s).ReservedBut l := by
  cases hx : (s.line l).exchange with
  | some x =>
    rw [completeShift_of_exchange hx]
    exact (h.but l).shifted hx
  | none =>
    unfold Machine.completeShift
    rw [hx]
    split
    next he => cases he
    · split
      · exact h.testCharacterLeft.but l
      · exact h.testFrameLeft.but l
    · exact h.but l

theorem State.Even.releaseDriver (h : s.Even t) : s.Even (releaseDriver l t) := h.onLine

theorem State.Even.endGuard (h : s.Even t) (hx : (t.line l).exchange = some x) (hp : x.phase = .guard) :
    s.Even (endGuard l x t) := by
  unfold Machine.endGuard
  dsimp only
  split
  · exact State.Even.enterGap h.onLine
  next hk =>
    rw [State.onLine_onLine]
    refine h.onLine ?_ (fun k y hy => ?_) fun k y hy => ?_
    · simp only [Line.holders_eq, hx]
      rfl
    · simp only [hx, Option.map_some, Option.some.injEq] at hy
      exact hy ▸ k x hx
    · simp only [hx, Option.map_some, Option.some.injEq] at hy
      exact hy ▸ Exchange.placed_of_undecided ((k x hx).undecided (by simp [hp]) fun hb => absurd hb hk)

/-! ### Exchanges that end or are repeated (R48, R55, R64 to R67) -/

theorem Line.placed_of_none {ln : Line} (h : ln.exchange = none) : ln.Placed := by simp [Line.Placed, h]

/-- R67: the work of an exchange that is cut off undecided is settled, and the exchange ends. -/
theorem State.ReservedBut.ends (h : s.ReservedBut l) (hx : (s.line l).exchange = some x) (hu : s.Settles x.units u) :
    (endExchange l u).Reserved := by
  refine (endExchange_even l u).reserved ((((State.Even.refl s).emptied hx hu).but h).reserved ?_)
  exact Line.placed_of_none (by rw [State.line_onLine_same]; rfl)

theorem State.ReservedBut.cutOff (h : s.ReservedBut l) : (cutOff l s).Reserved := by
  have released : s.Even (s.onLine l Line.released) := (State.Even.refl s).onLine
  have free := released.but h
  cases hx : (s.line l).exchange with
  | none =>
    rw [cutOff_of_none hx]
    exact free.reserved (Line.placed_of_none (by rwa [State.line_onLine_same]))
  | some x =>
    have hf : ((s.onLine l Line.released).line l).exchange = some x := by rwa [State.line_onLine_same]
    have ha := h.accounted l x hx
    cases ho : x.outcome with
    | some o =>
      have none : x.units = 0 := ha.units_eq_zero (.inl (by simp [ho]))
      rw [cutOff_of_decided hx (by simp [ho])]
      exact free.ends hf (.of_zero (.refl _) none)
    | none =>
      rw [cutOff_of_undecided hx ho]
      have none (hp : x.kind ≠ .poll) (hq : x.kind ≠ .probe) : x.units = 0 := ha.units_eq_zero (.inr ⟨hp, hq⟩)
      cases hk : x.kind with
      | poll =>
        rw [disposeWork_of_poll hk]
        exact free.ends hf (releaseHeld_settles x _).onNamed
      | probe =>
        rw [disposeWork_of_probe hk]
        exact free.ends hf (releaseHeld_settles x _).onNamed
      | command =>
        rw [disposeWork_of_record (.inl hk)]
        exact free.ends hf (.of_zero (State.Settles.refl _).giveBack (none (by simp [hk]) (by simp [hk])))
      | broadcast =>
        rw [disposeWork_of_record (.inr hk)]
        exact free.ends hf (.of_zero (State.Settles.refl _).giveBack (none (by simp [hk]) (by simp [hk])))
      | rollCall =>
        rw [disposeWork_of_rollCall hk]
        exact ((State.Even.refl _).rollCallResult.but free).ends ((rollCallResult_exchange ..).trans hf)
          (.of_zero (.refl _) (none (by simp [hk]) (by simp [hk])))

theorem State.Even.beginAttempt (h : s.Even t) {y : Exchange} (hx : (t.line l).exchange.elim 0 Exchange.units = y.units)
    (ha : (t.line l).Accounted → y.Accounted) (ho : y.outcome = none) : s.Even (beginAttempt l y t) := by
  refine State.Even.settled h ((State.Settles.refl t).onCarried) ?_ (fun k z hz => ?_) fun _ z hz => ?_
  · simp only [Line.holders_eq, hx]
    rfl
  · cases hz
    exact ha k
  · cases hz
    exact Exchange.placed_of_undecided ho

theorem State.Reserved.expireGap (h : s.Reserved) (hx : (s.line l).exchange = some x) : (expireGap l x s).Reserved := by
  have ha := h.accounted hx
  unfold Machine.expireGap
  split
  next ho =>
    have none := ha.units_eq_zero (.inl ho)
    exact (h.but l).ends hx (.of_zero (.refl s) none)
  next ho =>
    split
    next hc =>
      have carries : x.record ≠ none := by
        rintro hr
        simp [carriedCancelPending, hr] at hc
      have none : x.units = 0 := ha.units_eq_zero
        (.inr ⟨fun hk => carries (ha.1 (.inl hk)).2, fun hk => carries (ha.1 (.inr hk)).2⟩)
      exact (h.but l).ends hx (.of_zero (State.Settles.refl s).completeCarried none)
    next =>
      exact ((State.Even.refl s).beginAttempt (y := { x with attempt := x.attempt + 1 }) (by rw [hx]; rfl)
        (fun k => k x hx) (Option.not_isSome_iff_eq_none.1 ho)).reserved h

/-! ### Modes, line resets and STUCK -/

theorem Line.Workable.exchange_eq_none {ln : Line} (w : ln.Workable) (hm : ln.mode ≠ .active) : ln.exchange = none := by
  rw [← Line.sending_eq_none]
  by_contra hx
  exact hm (w.exchange (Option.isSome_iff_ne_none.2 hx)).1

/-- R65: outside ACTIVE no exchange is in flight. -/
theorem State.ReservedBut.reserved_of_inactive (h : s.ReservedBut l) (w : (s.line l).Workable)
    (hm : (s.line l).mode ≠ .active) : s.Reserved := h.reserved (Line.placed_of_none (w.exchange_eq_none hm))

theorem State.ReservedBut.endLineWork (h : s.ReservedBut l) (w : (s.line l).Workable) : (endLineWork l s).Reserved := by
  unfold Machine.endLineWork
  split
  next hm => exact (State.Even.refl s).endTest.reserved (h.reserved_of_inactive w (by simp [hm]))
  next => exact (State.Even.onLine (State.Even.refl _).endScan).reserved h.cutOff
  next hm => exact h.reserved_of_inactive w hm

theorem State.ReservedBut.endWorkForReset (h : s.ReservedBut l) (w : (s.line l).Workable) :
    (endWorkForReset l s).Reserved := by
  unfold Machine.endWorkForReset
  split
  next hm => exact (State.Even.refl s).endTest.reserved (h.reserved_of_inactive w (by simp [hm]))
  next => exact (State.Even.refl _).endScan.reserved h.cutOff
  next hm => exact h.reserved_of_inactive w hm

theorem State.Even.takeMode (h : s.Even t) {m : LineMode} : s.Even (takeMode l m t) := by
  unfold Machine.takeMode
  cases m <;> exact h.onLine

theorem State.ReservedBut.changeMode (h : s.ReservedBut l) (w : (s.line l).Workable) {m : LineMode} :
    (changeMode l m s).Reserved := by
  have ended := h.endLineWork w
  unfold Machine.changeMode
  dsimp only
  split
  · exact ended
  · exact (State.Even.refl _).endAssembly.takeMode.raiseLineNotice.reserved ended

theorem State.ReservedBut.resetLineNow (h : s.ReservedBut l) (w : (s.line l).Workable) :
    (resetLineNow l s).Reserved := by
  have cleared : (Machine.endWorkForReset l s).Even ((Machine.endWorkForReset l s).onLine l clearLine) :=
    (State.Even.refl _).onLine
  exact (cleared.foldl_resetStation _).raiseLineNotice.reserved (h.endWorkForReset w)

theorem State.Reserved.takeStuck (h : s.Reserved) : (takeStuck l s).Reserved := by
  have raised : (raiseStuck l s).Reserved :=
    State.Even.reserved (State.Even.raiseLineNotice (State.Even.refl s).onLine) h
  unfold Machine.takeStuck
  dsimp only
  split
  · unfold stuckInMonitor
    split
    · exact raised
    · exact raised.abandonFrame
  · exact (State.Even.refl _).endScan.reserved (raised.but l).cutOff

/-! ### The scheduler (R70 to R77, R83) -/

/-- R42: an exchange that asks for no reservation starts on a free line. -/
theorem State.Even.startExchange (h : s.Even t) (hx : (t.line l).exchange = none) {kind : ExchangeKind}
    {station : Option Nat} {target : Nat} {record : Option Half} {toggle : Bool} {payload : List Byte}
    (hp : kind ≠ .poll) (hq : kind ≠ .probe) :
    s.Even (startExchange l kind station target record false toggle payload t) := by
  have carried (y : Exchange) :
      s.Even (Machine.onCarried y (fun r => { r with state := .inFlight, lastFailure := none }) t) :=
    h.onCarried
  refine (carried _).beginAttempt ?_ (fun _ => ?_) rfl
  · rw [onCarried_line, hx]
    rfl
  · exact ⟨fun hk => absurd hk (by simp [hp, hq]), by simp [hp, hq]⟩

theorem State.Even.takeRollCall (h : s.Even t) (hx : (t.line l).exchange = none) (hs : (t.line l).scan.isSome)
    {sc : Scan} {a : Nat} : s.Even (takeRollCall l sc a t) := by
  refine State.Even.startExchange (h.onLine (by simp [Line.holders_eq, hs])) ?_ nofun nofun
  rwa [State.line_onLine_same]

theorem State.Even.takeRecord (h : s.Even t) (hx : (t.line l).exchange = none) {r : CommandRecord} :
    s.Even (takeRecord l r t) := by
  have counted : s.Even (t.onLine l fun ln =>
      { ln with commandCount := min (ln.commandCount + 1) ln.config.commandStreak, scanCount := 0 }) := h.onLine
  unfold Machine.takeRecord
  dsimp only
  split
  · exact counted.startExchange (by rwa [State.line_onLine_same]) nofun nofun
  · split
    · exact counted
    · exact counted.startExchange (by rwa [State.line_onLine_same]) nofun nofun

/-- R77, R83: a POLL or PROBE starts with the reservation that it is granted. -/
theorem State.Even.startPolling (h : s.Even t) (hx : (t.line l).exchange = none) (hs : t.queue.hasSpace = true)
    {f : Line → Line} {kind : ExchangeKind} {n : Nat} {e : Station} {control : Byte} {toggle : Bool}
    {g : Option Station} (hk : kind = .poll ∨ kind = .probe)
    (hf : (f (t.line l)).exchange = some (polling kind n e control toggle))
    (hc : (f (t.line l)).scan = (t.line l).scan := by rfl) (ht : (f (t.line l)).test = (t.line l).test := by rfl) :
    s.Even (((grant t).setStation n g).onLine l f) := by
  refine h.granted (fun _ hb => (hb.grant hs).of_eq (by simp) (by simp)) (fun _ => by simp) ?_ (fun _ y hy => ?_)
    fun _ y hy => ?_
  · rw [Line.holders_eq, Line.holders_eq, hf, hc, ht, hx]
    rfl
  · cases hf.symm.trans hy
    exact ⟨fun _ => ⟨rfl, rfl⟩, by simp [polling, hk]⟩
  · cases hf.symm.trans hy
    exact Exchange.placed_of_undecided rfl

theorem State.Even.chooseWork (h : s.Even t) (hx : (t.line l).exchange = none) : s.Even (chooseWork l t) := by
  unfold Machine.chooseWork
  split
  · split
    · exact h
    · exact h.takeRecord hx
  · split
    next hp =>
      have space : t.queue.hasSpace = true := (Bool.and_eq_true_iff.1 hp).2
      split
      · exact h
      next n _ =>
        cases he : t.station n with
        | none =>
          unfold takePoll
          rwa [he]
        | some e =>
          rw [takePoll_eq he]
          exact h.startPolling hx space (.inl rfl) rfl
    · split
      next hp =>
        have space : t.queue.hasSpace = true := (Bool.and_eq_true_iff.1 hp).2
        split
        · exact h
        next n _ =>
          cases he : t.station n with
          | none =>
            unfold takeProbe
            rwa [he]
          | some e =>
            rw [takeProbe_eq he]
            exact h.startPolling hx space (.inr rfl) rfl
      · exact h

theorem State.Even.choose (h : s.Even t) (hx : (t.line l).exchange = none) : s.Even (choose l t) := by
  unfold Machine.choose
  split
  · exact h.chooseWork hx
  next sc hsc =>
    split
    · exact h.endScan.chooseWork ((endScan_exchange ..).trans hx)
    · split
      · exact h.takeRollCall hx (by simp [hsc])
      · exact (h.onLine (by simp [Line.holders_eq, hsc])).chooseWork (by rwa [State.line_onLine_same])

end

end Sys2Proof.Machine
end

section
/-! SUPPORT. What the host link, the requests and the rows do to the reservations (R150). -/

namespace Sys2Proof.Machine

section
variable {s t u : State} {l : LineId} {x : Exchange}

/-! ### The host link -/

/-- What leaves lines and pool as they stand, and removes entries at most. -/
theorem State.Even.of_shorter (h : s.Even t) (he : u.queue.entries.length ≤ t.queue.entries.length)
    (hr : u.queue.reservations = t.queue.reservations := by rfl) (hp : u.pool = t.pool := by rfl)
    (hl : ∀ l, u.line l = t.line l := by exact fun _ => rfl) : s.Even u :=
  h.then (fun _ hk => hk.of_shorter hp hr he) hl

/-- What leaves lines, pool and queue as they stand. -/
theorem State.Even.aside (h : s.Even t) (hp : u.pool = t.pool := by rfl) (hq : u.queue = t.queue := by rfl)
    (hl : ∀ l, u.line l = t.line l := by exact fun _ => rfl) : s.Even u := h.of_eq hp hq hl

theorem dropThrough_length_le (n : Half) (es : List Entry) : (dropThrough n es).length ≤ es.length := by
  induction es with
  | nil => exact Nat.le_refl 0
  | cons e es ih =>
    unfold dropThrough
    split
    · exact Nat.le_succ _
    · exact ih.trans (Nat.le_succ _)

theorem State.Even.queueIfRoom (h : s.Even t) {r : Response} : s.Even (queueIfRoom r t) :=
  .ite (fun _ => h.aside) fun _ => h.aside

theorem State.Even.answerHeld (h : s.Even t) : s.Even (answerHeld t) := by
  unfold Machine.answerHeld
  split
  · exact h
  · exact h.aside

theorem State.Even.returnFromStall (h : s.Even t) : s.Even (returnFromStall t) := .ite (fun _ => h.aside) fun _ => h

theorem State.Even.takeAck (h : s.Even t) {n : Half} : s.Even (takeAck n t) := by
  refine .ite (fun _ => ?_) fun _ => h.aside
  unfold acknowledge
  have shorter := dropThrough_length_le n t.queue.entries
  exact .ite (fun _ => h.of_shorter shorter) fun _ => h.of_shorter shorter

theorem State.Even.startHostFrame (h : s.Even t) : s.Even (startHostFrame t) := by
  refine .ite (fun _ => ?_) fun _ => h
  split
  · exact h.aside
  · split
    · exact h.of_shorter (List.length_map ..).le
    · exact .ite (fun _ => h.aside) fun _ => h

theorem State.Even.restartAckTimer (h : s.Even t) : s.Even (restartAckTimer t) := .ite (fun _ => h.aside) fun _ => h

theorem State.Even.arrive (h : s.Even t) {r : Request} : s.Even (arrive r t) := by
  unfold Machine.arrive
  split
  · exact h.queueIfRoom.aside
  · refine .ite (fun _ => h.aside) fun _ => .ite (fun _ => ?_) fun _ => h.aside
    exact .ite (fun _ => h.queueIfRoom.aside) fun _ => h.queueIfRoom

/-! ### Requests -/

/-- A request keeps the reservations sound when its steps do, of which the lines are sound too. -/
theorem takeRequest_reserved {code : Nat} {inClosed : Bool} {apply : List Byte → State → Applied}
    (ha : ∀ body u, u.LinesSound → u.Reserved → (apply body u).state.Reserved) (hl : s.LinesSound) (h : s.Reserved) :
    (takeRequest code inClosed apply s).Reserved := by
  have same {u v : State} (hu : u.Reserved) (even : u.Even v) : v.Reserved := even.reserved hu
  unfold takeRequest
  split
  · exact h
  next r rest _ =>
    have even : s.Even (s.onLink fun k => { k with intake := rest }) := (State.Even.refl s).aside
    have taken := even.reserved h
    have lines : (s.onLink fun k => { k with intake := rest }).LinesSound := fun m => hl m
    split
    · dsimp only
      split
      · exact same taken (State.Even.refl _).aside
      · split
        · exact same taken (State.Even.refl _).aside
        · split
          · exact same (ha _ _ lines taken) (State.Even.refl _).aside
          · exact same (ha _ _ lines taken) (State.Even.refl _).aside
    · exact h

theorem takeRequest_reserved_of_even {code : Nat} {inClosed : Bool} {apply : List Byte → State → Applied}
    (ha : ∀ body u, State.Even u (apply body u).state) (hl : s.LinesSound) (h : s.Reserved) :
    (takeRequest code inClosed apply s).Reserved :=
  takeRequest_reserved (fun body u _ hu => (ha body u).reserved hu) hl h

theorem withLine_even {body : List Byte} {f : LineId → Applied} (hf : ∀ l, s.Even (f l).state) :
    s.Even (withLine body s f).state := by
  unfold withLine
  split
  · exact .refl s
  · exact hf _

theorem withLine_reserved {body : List Byte} {f : LineId → Applied} (h : s.Reserved) (hf : ∀ l, (f l).state.Reserved) :
    (withLine body s f).state.Reserved := by
  unfold withLine
  split
  · exact h
  · exact hf _

theorem withStation_even {body : List Byte} {f : Nat → Station → Applied} (hf : ∀ n e, s.Even (f n e).state) :
    s.Even (withStation body s f).state := by
  unfold withStation
  dsimp only
  split
  · exact .refl s
  · split
    · exact .refl s
    · exact hf _ _

/-! ### The requests of the command pool (R95, R96, R103) -/

theorem submitForStation_even (n : Nat) (e : Station) (body : List Byte) (s : State) :
    s.Even (submitForStation n e body s).state := by
  unfold submitForStation
  split
  · exact .refl s
  next hf =>
    split
    · exact .refl s
    next hn =>
      split
      · exact .refl s
      next hp =>
        split
        · exact .refl s
        next hs =>
          refine (State.Even.refl s).then (fun _ hk => ?_) fun _ => rfl
          refine hk.acceptRecord _ _ (by simpa using hf) (fun m hm => ?_) (Nat.lt_of_not_ge hp) (by simpa using hs)
          exact Option.some.inj hm ▸ Nat.lt_of_not_ge hn

theorem applySubmitCommand_even (body : List Byte) (s : State) : s.Even (applySubmitCommand body s).state := by
  unfold applySubmitCommand
  dsimp only
  split
  · exact .refl s
  · split
    · exact .refl s
    · split
      · exact .refl s
      · exact .refl s
      · exact submitForStation_even _ _ body s
      · exact submitForStation_even _ _ body s
      · exact submitForStation_even _ _ body s

theorem applySubmitBroadcast_even (body : List Byte) (s : State) : s.Even (applySubmitBroadcast body s).state := by
  unfold applySubmitBroadcast
  split
  · exact .refl s
  · split
    · exact .refl s
    · split
      · exact .refl s
      next hf =>
        split
        · exact .refl s
        next hp =>
          split
          · exact .refl s
          next hs =>
            refine (State.Even.refl s).then (fun _ hk => ?_) fun _ => rfl
            exact hk.acceptRecord _ _ (by simpa using hf) nofun (Nat.lt_of_not_ge hp) (by simpa using hs)

theorem applyCancelCommand_even (body : List Byte) (s : State) : s.Even (applyCancelCommand body s).state := by
  unfold applyCancelCommand
  split
  · exact .refl s
  next hr =>
    split
    · exact ((State.Settles.refl s).completeRecord (Pool.mem_of_find hr)).even
    · exact (State.Settles.refl s).onRecord.even

/-! ### The requests of the stations (Chapter 1, R80) -/

theorem applyDefineStation_even (body : List Byte) (s : State) : s.Even (applyDefineStation body s).state := by
  unfold applyDefineStation
  split
  · exact .refl s
  · split
    · exact .refl s
    · split
      · exact .refl s
      · refine State.Even.onStation (.ite (fun _ => ?_) fun _ => ?_)
        · exact (State.Even.refl s).setStation.enterProbing
        · exact (State.Even.refl s).setStation.onStation.leaveProbeLists

theorem applyModifyStation_even (body : List Byte) (s : State) : s.Even (applyModifyStation body s).state := by
  unfold applyModifyStation
  split
  · exact .refl s
  · exact withStation_even fun _ _ => (State.Even.refl s).setStation

theorem applyRemoveStation_even (body : List Byte) (s : State) : s.Even (applyRemoveStation body s).state := by
  refine withStation_even fun n _ => ?_
  split
  · exact .refl s
  · exact (State.Even.refl s).completeAllOf.leaveProbeLists.setStation

theorem applyEnableStation_even (body : List Byte) (s : State) : s.Even (applyEnableStation body s).state := by
  refine withStation_even fun n _ => ?_
  split
  · exact (State.Even.refl s).onStation.enterProbing.onStation
  · exact (State.Even.refl s).setStation

theorem applyDisableStation_even (body : List Byte) (s : State) : s.Even (applyDisableStation body s).state := by
  refine withStation_even fun n _ => ?_
  split
  · exact .refl s
  · split
    · exact (State.Even.refl s).setStation
    · exact (State.Even.refl s).disableTakesEffect

theorem applyReadStation_even (body : List Byte) (s : State) : s.Even (applyReadStation body s).state := by
  unfold applyReadStation
  dsimp only
  split
  · exact .refl s
  · split <;> exact .refl s

theorem applyRequestPoll_even (body : List Byte) (s : State) : s.Even (applyRequestPoll body s).state := by
  refine withStation_even fun n _ => ?_
  split
  · exact (State.Even.refl s).setStation
  · exact (State.Even.refl s).setStation
  · exact .refl s
  · exact .refl s
  · exact .refl s

/-! ### The requests of the lines (R126, R129, R131, R134, R138, R139) -/

/-- R25: a request that waits for the character in the shift path changes nothing that holds a reservation. -/
theorem afterShift_reserved {ending : LineEnding} {now : State → State} (h : s.Reserved) (hn : (now s).Reserved) :
    (afterShift l ending now s).state.Reserved := by
  have waits : s.Even (s.onLine l fun ln => { ln with ending := some ending }) := (State.Even.refl s).onLine
  unfold afterShift
  split
  · exact waits.reserved h
  · exact hn

theorem applySetLineMode_reserved (body : List Byte) (s : State) (hl : s.LinesSound) (h : s.Reserved) :
    (applySetLineMode body s).state.Reserved := by
  refine withLine_reserved h fun l => ?_
  split
  · exact h
  · split
    · exact h
    · exact afterShift_reserved h ((h.but l).changeMode (hl l).workable)

theorem applyResetLine_reserved (body : List Byte) (s : State) (hl : s.LinesSound) (h : s.Reserved) :
    (applyResetLine body s).state.Reserved :=
  withLine_reserved h fun l => afterShift_reserved h ((h.but l).resetLineNow (hl l).workable)

theorem applyConfigureLine_even (body : List Byte) (s : State) : s.Even (applyConfigureLine body s).state := by
  refine withLine_even fun l => ?_
  have configured (config : LineConfig) : s.Even (s.onLine l fun ln => { ln with config }) := (State.Even.refl s).onLine
  split
  · exact .refl s
  · split
    · exact .refl s
    · exact configured _

/-- R134: the scan is granted its reservation. -/
theorem startScan_even (hn : (s.line l).scan = none) (hs : s.queue.hasSpace = true) (first last : Nat) :
    s.Even (startScan l first last s) := by
  refine (State.Even.refl s).granted (fun _ hb => hb.grant hs) (fun _ => rfl) ?_
  simp only [Line.holders_eq, hn, Option.isSome_some, Option.isSome_none, Bool.false_eq_true, if_true, if_false]
  omega

theorem applyStartScan_even (body : List Byte) (s : State) : s.Even (applyStartScan body s).state := by
  refine withLine_even fun l => ?_
  split
  · exact .refl s
  · split
    · exact .refl s
    next idle =>
      split
      · exact .refl s
      · split
        · exact .refl s
        next hs =>
          exact startScan_even (by simpa using (not_or.1 idle).1) (by simpa using hs) _ _

theorem applyCancelScan_even (body : List Byte) (s : State) : s.Even (applyCancelScan body s).state := by
  refine withLine_even fun l => ?_
  split
  · exact .refl s
  · exact (State.Even.refl s).endScan

/-- R139: the line test is granted its reservation. -/
theorem startTest_even (hn : (s.line l).test = none) (hs : s.queue.hasSpace = true) (count : Nat) :
    s.Even (startTest l count s) := by
  refine State.Even.raiseLineNotice ((State.Even.refl s).granted (fun _ hb => hb.grant hs) (fun _ => rfl) ?_)
  simp only [Line.holders_eq, hn, Option.isSome_some, Option.isSome_none, Bool.false_eq_true, if_true, if_false]
  omega

theorem applyStartLineTest_even (body : List Byte) (s : State) : s.Even (applyStartLineTest body s).state := by
  refine withLine_even fun l => ?_
  split
  · exact .refl s
  · split
    · exact .refl s
    next idle =>
      split
      · exact .refl s
      · split
        · exact .refl s
        next hs =>
          exact startTest_even (by simpa using (not_or.1 idle).2) (by simpa using hs) _

theorem applyReadLineStatus_even (body : List Byte) (s : State) : s.Even (applyReadLineStatus body s).state := by
  refine withLine_even fun l => ?_
  split
  · exact .ite (fun _ => (State.Even.refl s).aside rfl rfl fun m => by cases m <;> rfl) fun _ => .refl s
  · exact .refl s
  · exact .refl s

/-! ### The requests of link and outputs -/

theorem clearSentMarks_even (s : State) : s.Even (clearSentMarks s) :=
  (State.Even.refl s).of_shorter (List.length_map ..).le

theorem applyOpenSession_even (body : List Byte) (s : State) : s.Even (applyOpenSession body s).state := by
  unfold applyOpenSession
  dsimp only
  split
  · have discarded : s.Even (if flagAt body 4 then discardEntries s else s) :=
      .ite (fun _ => (State.Even.refl s).of_shorter (Nat.zero_le _)) fun _ => .refl s
    exact (discarded.trans (clearSentMarks_even _)).aside
  · exact .refl s

theorem applyCloseSession_even (body : List Byte) (s : State) : s.Even (applyCloseSession body s).state :=
  (clearSentMarks_even s).aside

theorem applyReadLinkStatus_even (body : List Byte) (s : State) : s.Even (applyReadLinkStatus body s).state :=
  .ite (fun _ => (State.Even.refl s).aside) fun _ => .refl s

theorem applyMask_even (value : Bool) (body : List Byte) (s : State) : s.Even (applyMask value body s).state := by
  unfold applyMask
  split
  · exact .refl s
  · exact (State.Even.refl s).aside rfl rfl fun m => by cases m <;> rfl

theorem applyAssignOutput_even (body : List Byte) (s : State) : s.Even (applyAssignOutput body s).state := by
  unfold applyAssignOutput
  split
  · exact .refl s
  · split
    · exact .refl s
    · exact (State.Even.refl s).aside rfl rfl fun m => by cases m <;> rfl

/-! ### Restart and power-on -/

/-- A state without entries, records and work of the lines. -/
theorem State.reserved_of_empty (hp : s.pool.records = []) (he : s.queue.entries = []) (hr : s.queue.reservations = 0)
    (hx : ∀ l, (s.line l).exchange = none) (hs : ∀ l, (s.line l).scan = none) (ht : ∀ l, (s.line l).test = none) :
    s.Reserved := by
  have holders (l : LineId) : (s.line l).holders = 0 := by simp [Line.holders_eq, hx, hs, ht]
  refine State.reserved_iff.2 ⟨(State.balanced_iff .a).2 ?_, fun l => ?_, fun l => Line.placed_of_none (hx l)⟩
  · exact ⟨by simp [hr, hp, holders], by simp [hr, he], by simp [TagsDistinct, hp], by simp [hp], by simp [hp]⟩
  · simp [Line.Accounted, hx]

theorem takeRestart_reserved (s : State) : (takeRestart s).Reserved := by
  refine State.reserved_of_empty rfl rfl rfl ?_ ?_ ?_ <;> exact fun | .a => rfl | .b => rfl

theorem powerOnState_reserved (s : State) : (powerOnState s).Reserved := by
  refine State.reserved_of_empty rfl rfl rfl ?_ ?_ ?_ <;> exact fun | .a => rfl | .b => rfl

/-! ### The rows -/

theorem hostFrameEnd_reserved (h : s.Reserved) (he : execHostFrameEnd s = .next t) : t.Reserved := by
  obtain rfl := Host.Outcome.next.inj he
  have ended : s.Even (endHostFrame s) := (State.Even.refl s).aside
  split
  · exact h
  · split
    · exact takeRestart_reserved s
    · exact ended.restartAckTimer.startHostFrame.reserved h
    · exact ended.startHostFrame.reserved h
    · exact ended.startHostFrame.reserved h

theorem driverRelease_reserved (hl : s.LinesSound) (h : s.Reserved) (he : execDriverRelease l s = .next t) :
    t.Reserved := by
  obtain rfl := Host.Outcome.next.inj he
  have released : (releaseDriver l (completeShift l s)).ReservedBut l :=
    State.Even.but (State.Even.refl _).releaseDriver h.completeShift
  have workable := (hl.completeShift (l := l)).releaseDriver.1
  split
  · exact h
  · exact (State.Even.refl s).releaseDriver.reserved h
  · exact (State.Even.refl _).answerHeld.reserved (released.changeMode workable)
  · exact (State.Even.refl _).answerHeld.reserved (released.resetLineNow workable)

theorem characterSent_reserved (h : s.Reserved) (he : execCharacterSent l s = .next t) : t.Reserved := by
  obtain rfl := Host.Outcome.next.inj he
  split
  · exact h
  · split
    · exact State.Even.reserved (.ite (fun _ => (State.Even.refl s).onExchange) fun _ => .refl s) h
    · split
      · exact h.testCharacterLeft
      · exact h
    · exact h

theorem frameSent_reserved (h : s.Reserved) (he : execFrameSent l s = .next t) : t.Reserved := by
  obtain rfl := Host.Outcome.next.inj he
  split
  · exact h
  · split
    next x _ hx =>
      split
      next last =>
        obtain ⟨hx, hp⟩ := exchangeIn_eq_some.1 hx
        rw [exchangeFrameLeft_shifted hx (by omega)]
        exact h.shifted hx hp
      · exact h
    · split
      · exact (State.Even.refl _).testAwaits.reserved h.testFrameLeft
      · exact h
    · exact h

theorem replyStartTimeout_reserved (h : s.Reserved) (he : execReplyStartTimeout l s = .next t) : t.Reserved := by
  obtain rfl := Host.Outcome.next.inj he
  split
  · exact h
  next hx =>
    split
    next hk => exact h.endRollCall (exchangeIn_eq_some.1 hx).1 hk
    · exact h.failAttempt

/-- R155: a drained notice enters where there is space. -/
theorem drainOne_even (hs : s.queue.hasSpace = true) : s.Even (drainOne s) := by
  have entered (r : Report) : s.Even (enqueue r s) := (State.Even.refl s).then fun _ hk => hk.enqueue hs r
  have line (l : LineId) : s.Even (drainLine l s) := (entered _).onLine
  unfold drainOne
  refine .ite (fun _ => line .a) fun _ => .ite (fun _ => line .b) fun _ => ?_
  split
  · exact .refl s
  · unfold drainStation
    split
    · exact .refl s
    · exact (entered _).setStation

/-- Every row of the table leaves the reservations sound. -/
theorem exec_reserved (i : Instr) (hl : s.LinesSound) (h : s.Reserved) (he : exec i s = .next t) : t.Reserved := by
  have even := State.Even.refl s
  have link (f : Link → Link) : s.Even (s.onLink f) := even.aside
  have same {u : State} (hu : s.Even u) : u.Reserved := hu.reserved h
  have guarded {p : Prop} [Decidable p] {u : State} (hu : s.Even u) : (if p then u else s).Reserved :=
    same (.ite (fun _ => hu) fun _ => even)
  cases i
  case hostFrameEnd => exact hostFrameEnd_reserved h he
  case driverRelease => exact driverRelease_reserved hl h he
  case characterSent => exact characterSent_reserved h he
  case frameSent => exact frameSent_reserved h he
  case replyStartTimeout => exact replyStartTimeout_reserved h he
  all_goals obtain rfl := Host.Outcome.next.inj he
  case powerOn => exact powerOnState_reserved s
  case powerOnResetEnd => exact guarded (even.aside rfl rfl fun m => by cases m <;> rfl)
  case byteDiscarded => exact guarded even.aside
  case hostFrameDiscarded => exact guarded even.aside
  case hostFrameGapTimeout => exact guarded even.aside
  case requestArrival => exact guarded (link _).returnFromStall.arrive
  case ack => exact guarded (link _).returnFromStall.takeAck
  case identify => exact takeRequest_reserved_of_even (fun _ _ => .refl _) hl h
  case openSession => exact takeRequest_reserved_of_even applyOpenSession_even hl h
  case closeSession => exact takeRequest_reserved_of_even applyCloseSession_even hl h
  case restart => exact takeRequest_reserved_of_even (fun _ u => (State.Even.refl u).aside) hl h
  case restartTaken =>
    split
    · exact takeRestart_reserved s
    · exact h
  case readLinkStatus => exact takeRequest_reserved_of_even applyReadLinkStatus_even hl h
  case readQueueStatus => exact takeRequest_reserved_of_even (fun _ _ => .refl _) hl h
  case defineStation => exact takeRequest_reserved_of_even applyDefineStation_even hl h
  case modifyStation => exact takeRequest_reserved_of_even applyModifyStation_even hl h
  case removeStation => exact takeRequest_reserved_of_even applyRemoveStation_even hl h
  case enableStation => exact takeRequest_reserved_of_even applyEnableStation_even hl h
  case disableStation => exact takeRequest_reserved_of_even applyDisableStation_even hl h
  case readStation => exact takeRequest_reserved_of_even applyReadStation_even hl h
  case clearStationErrors =>
    exact takeRequest_reserved_of_even (fun _ u => withStation_even fun _ _ => (State.Even.refl u).setStation) hl h
  case requestPoll => exact takeRequest_reserved_of_even applyRequestPoll_even hl h
  case submitCommand => exact takeRequest_reserved_of_even applySubmitCommand_even hl h
  case submitBroadcast => exact takeRequest_reserved_of_even applySubmitBroadcast_even hl h
  case cancelCommand => exact takeRequest_reserved_of_even applyCancelCommand_even hl h
  case setLineMode => exact takeRequest_reserved applySetLineMode_reserved hl h
  case configureLine => exact takeRequest_reserved_of_even applyConfigureLine_even hl h
  case resetLine => exact takeRequest_reserved applyResetLine_reserved hl h
  case startScan => exact takeRequest_reserved_of_even applyStartScan_even hl h
  case cancelScan => exact takeRequest_reserved_of_even applyCancelScan_even hl h
  case startLineTest => exact takeRequest_reserved_of_even applyStartLineTest_even hl h
  case readLineStatus => exact takeRequest_reserved_of_even applyReadLineStatus_even hl h
  case clearLineCounters =>
    have cleared (u : State) (l : LineId) : u.Even (countLine l (fun _ => .zero) u) := (State.Even.refl u).countLine
    exact takeRequest_reserved_of_even (fun _ u => withLine_even (cleared u)) hl h
  case setOutputs => exact takeRequest_reserved_of_even (applyMask_even true) hl h
  case clearOutputs => exact takeRequest_reserved_of_even (applyMask_even false) hl h
  case assignOutput => exact takeRequest_reserved_of_even applyAssignOutput_even hl h
  case ctsFall => exact same (link _).startHostFrame
  case ctsRise => exact same (link _)
  case hostTransmitStart => exact same even.startHostFrame
  case ackTimerExpiry => exact guarded (.ite (fun _ => even.aside) fun _ => even.aside)
  case helloTimerExpiry => exact guarded even.aside
  case schedulerChoice l =>
    split
    next free =>
      have none : (s.line l).exchange = none := by
        simp only [Line.free, Bool.and_eq_true, Option.isNone_iff_eq_none] at free
        tauto
      exact same (even.choose none)
    · exact h
  case guardEnd =>
    split
    · exact h
    next hx => exact same (even.endGuard (exchangeIn_eq_some.1 hx).1 (exchangeIn_eq_some.1 hx).2)
  case addressCharacterReceived => exact h.characterEvent
  case lengthAbandon => exact h.characterEvent
  case strayCharacter => exact h.characterEvent
  case frameReceived => exact h.characterEvent
  case frameCharacterReceived => exact h.characterEvent
  case intercharacterTimeout =>
    split
    · exact h
    · exact h.abandonFrame
  case gapExpiry =>
    split
    · exact h
    next hx => exact h.expireGap (exchangeIn_eq_some.1 hx).1
  case pollTimerExpiry => exact same even.onStation
  case holdoffTimerExpiry => exact same even.onStation
  case probeTimerExpiry => exact same even.onStation
  case stuckRaised =>
    split
    · exact h.takeStuck
    · exact h
  case stuckCleared => exact guarded even.onLine.raiseLineNotice
  case testAwaitTimeout =>
    split
    · exact h
    · exact same even.judgeTest
  case testGapExpiry =>
    split
    · exact h
    next ht =>
      have ht := (Option.filter_eq_some_iff.1 ht).1
      exact same (even.onLine (by simp [Line.holders_eq, ht]))
  case noticeDrain => exact same (.ite drainOne_even fun _ => even)
  case startBitAccepted => exact guarded even.onLine
  case glitch => exact guarded even.countLine
  case receiveInputLevelChange => exact same even.onLine
  case hostByteReceived => exact guarded even.aside
  case hostStartBitAccepted => exact same (.ite (fun _ => even) fun _ => link _)
  case unknownRequestCode =>
    split
    · exact h
    · exact guarded even.aside

/-- Every step leaves the reservations sound. -/
theorem step_reserved (hl : s.LinesSound) (h : s.Reserved) (hs : step s = .next t) : t.Reserved := by
  have even := State.Even.refl s
  unfold step at hs
  split at hs
  · unfold idle at hs
    split at hs
    · exact exec_reserved _ hl h hs
    · obtain rfl := Host.Outcome.next.inj hs
      exact (even.aside rfl rfl fun m => by cases m <;> rfl).reserved h
  next rest _ =>
    have queued : s.Even { s with pending := rest } := even.aside rfl rfl fun m => by cases m <;> rfl
    have lines : State.LinesSound { s with pending := rest } := fun | .a => hl .a | .b => hl .b
    exact exec_reserved _ lines (queued.reserved h) hs

end

/-- Settles O55. -/
theorem everyStepKeepsTheReservations : Obligations.EveryStepKeepsTheReservations := by
  intro s t ha hb h hs
  exact step_reserved (fun | .a => ha | .b => hb) h hs

end Sys2Proof.Machine
end

section
/-! PROOF. Attempts without a reply (R46, R53, R54, R60, R61, R136). -/

namespace Sys2Proof.Machine

section
variable {s : State} {l : LineId} {x : Exchange}

theorem Line.seeking_of_none {ln : Line} (h : ln.assembler = none) : ln.seeking = ln := by
  obtain ⟨⟩ := ln
  simp_all [Line.seeking]

/-- R48: on a line that holds no partial frame, what follows a failure reads the line as it stands. -/
theorem State.onLine_seeking (h : (s.line l).assembler = none) (f : Line → Line) :
    s.onLine l (fun ln => f ln.seeking) = s.onLine l f :=
  State.onLine_congr (congrArg f (Line.seeking_of_none h))

theorem exec_replyStartTimeout_of_rollCall (hx : (s.line l).exchange = some x) (hp : x.phase = .await)
    (hk : x.kind = .rollCall) : exec (.replyStartTimeout l) s = .next (endRollCall l false s) := by
  show execReplyStartTimeout l s = _
  simp [execReplyStartTimeout, exchangeIn, hx, Option.filter, hp, hk]

theorem release_eq {t : State} (h : t.queue = s.queue) :
    release t = { t with queue := { s.queue with reservations := s.queue.reservations - 1 } } := by
  rw [← h]
  rfl

end

/-- Settles O41. -/
theorem unansweredAttemptsFail : Obligations.UnansweredAttemptsFail := by
  intro s l x hx hp ha htags inGap failing decided timedOut
  have seeks (m : Nat) (f : Station) (g : Line → Line) :
      (s.setStation m (some f)).onLine l (fun ln => g ln.seeking) = (s.setStation m (some f)).onLine l g :=
    State.onLine_seeking (by rwa [State.setStation_line]) g
  have queue (m : Nat) (f : Station) (g : Line → Line) : ((s.setStation m (some f)).onLine l g).queue = s.queue := by
    rw [State.onLine_queue, State.setStation_queue]
  have pool (m : Nat) (f : Station) (g : Line → Line) : ((s.setStation m (some f)).onLine l g).pool = s.pool := by
    rw [State.onLine_pool, State.setStation_pool]
  have gapped (y : Exchange) : (s.line l).gapped y = inGap y (s.line l) := by simp [Line.gapped, inGap, ha]
  have fails (hk : x.kind ≠ .rollCall) := exec_replyStartTimeout hx hp hk
  refine ⟨fun n e hn he => ⟨fun hl hr hk => ?_, fun tag hl hr hk => ?_, fun hl hr hk hh => ?_, fun hl hr hk hh => ?_,
    fun q hq hl hr hk ho hold => ?_⟩, fun hk hs => ?_, fun sc hk hs hr hc => ?_, fun sc hk hs hr hc => ?_⟩
  · rw [fails (by rcases hk with hk | hk <;> simp [hk]), failAttempt_of_retry hx hn he hl, onCarried_of_none hr, seeks]
    rfl
  · rw [fails (by simp [hk]), failAttempt_of_retry hx hn he hl, onCarried_of_some hr, seeks, onRecord_eq, pool]
    rfl
  · rw [fails (by simp [hk]), failAttempt_of_last_poll hx hn he hl hk hr hh, seeks, release_eq (queue ..)]
    rfl
  · rw [fails (by simp [hk]), failAttempt_of_last_probe hx hn he hl hk hr hh, seeks, release_eq (queue ..)]
    rfl
  · rw [fails (by simp [hk]), failAttempt_of_last_command hx ⟨hn, he, hr, htags, hq, ho, hold⟩ hl hk, seeks]
    rfl
  · rw [exec_replyStartTimeout_of_rollCall hx hp hk, endRollCall_of_idle hx hs]
    exact congrArg _ (State.onLine_congr (gapped _))
  · rw [exec_replyStartTimeout_of_rollCall hx hp hk, endRollCall_of_waiting hx hs hr, if_neg (Nat.not_lt.2 hc),
      State.onLine_onLine]
    refine congrArg _ (State.onLine_congr ?_)
    rw [gapped]
    rfl
  · rw [exec_replyStartTimeout_of_rollCall hx hp hk, endRollCall_of_waiting hx hs hr, if_pos hc, State.onLine_onLine]
    refine congrArg (fun t => Host.Outcome.next (converted _ t)) (State.onLine_congr ?_)
    rw [gapped]
    rfl

end Sys2Proof.Machine
end

section
/-! PROOF. Failed exchanges: loss of a station and failover (R108 to R115, R120). -/

namespace Sys2Proof.Machine

section
variable {s : State} {n : Nat} {e : Station}

/-! ### A station that is lost (R113) -/

theorem station_probeListed_setStation (hn : n < 48) (l : Option LineId) (f : Station) :
    (probeListed l n (s.setStation n (some f))).station n = some f := State.station_setStation_same _ _ _ hn

/-- R102: every record of a station completes; its busy streak becomes 0, if it has one. -/
theorem completeAllOf_of_station (o : CommandOutcome) (hd : TagsDistinct s) (he : s.station n = some e) :
    completeAllOf n o s =
      (recordsDone (s.pool.recordsOf n) o s).setStation n
        (some { e with busyStreak := if s.pool.recordsOf n = [] then e.busyStreak else 0 }) := by
  obtain ⟨f, -, some, none, eq⟩ := completeAllOf_eq n o hd
  rw [eq, State.onStation_of_station (by simpa using he)]
  split
  next hr => rw [none hr]
  next hr => rw [some hr]

/-- R113: the entry of a station that is lost, with its live records. -/
def Station.lost (e : Station) (records : List CommandRecord) : Station :=
  noticed { e with state := .offline, busyStreak := if records = [] then e.busyStreak else 0 } .lost

/-- R113: from PROBING the station keeps its place in the probe list. -/
theorem loseStation_of_probing (hd : TagsDistinct s) (he : s.station n = some e) (hs : e.state = .probing) :
    loseStation n s =
      (recordsDone (s.pool.recordsOf n) .stationLost s).setStation n (some (e.lost (s.pool.recordsOf n))) := by
  have hn := State.station_lt he
  have entered : enterOffline n s = s.setStation n (some { e with state := .offline }) := by
    simp [enterOffline, he, hs]
  rw [loseStation, entered, completeAllOf_of_station _ (by rwa [TagsDistinct, State.setStation_pool])
      (State.station_setStation_same _ _ _ hn), State.setStation_pool, recordsDone_setStation,
    State.setStation_setStation, State.onStation_of_station (State.station_setStation_same _ _ _ hn),
    State.setStation_setStation]
  rfl

/-- R113: from SUSPECT it joins the tail of the probe list, its probe timer at 0. -/
theorem loseStation_of_suspect (hd : TagsDistinct s) (he : s.station n = some e) (hs : e.state ≠ .probing) :
    loseStation n s =
      probeListed (some e.current) n
        ((recordsDone (s.pool.recordsOf n) .stationLost s).setStation n
          (some { e.lost (s.pool.recordsOf n) with pollTimer := none, pollDue := false, probeTimer := some 0 })) := by
  have hn := State.station_lt he
  have entered : enterOffline n s =
      probeListed (some e.current) n
        (s.setStation n
          (some { e with state := .offline, pollTimer := none, pollDue := false, probeTimer := some 0 })) := by
    simp only [enterOffline, he, hs, if_false, joinProbeList_leaveProbeLists]
  have pool (l : Option LineId) (f : Station) : (probeListed l n (s.setStation n (some f))).pool = s.pool :=
    State.setStation_pool ..
  rw [loseStation, entered, completeAllOf_of_station _ (by rwa [TagsDistinct, pool])
      (station_probeListed_setStation hn ..), pool, recordsDone_probeListed, recordsDone_setStation,
    probeListed_setStation, State.setStation_setStation, probeListed_onStation,
    State.onStation_of_station (State.station_setStation_same _ _ _ hn), State.setStation_setStation]
  rfl

/-! ### A station that changes its line (R114, R115) -/

theorem probeListed_probeListed (l m : Option LineId) (n : Nat) (s : State) (h : m = none) :
    probeListed l n (probeListed m n s) = probeListed l n s := by
  simp [probeListed, h, List.filter_filter]

theorem moveRecords_setStation (m : LineId) (f : Option Station) (s : State) :
    moveRecords n m (s.setStation n f) = (moveRecords n m s).setStation n f := by
  unfold State.setStation
  split <;> rfl

/-- R114, R123: the entry of a station that has changed its line. -/
def Station.failedOver (e : Station) : Station := noticed e.switchLine.toProbing .failover

theorem failOver_eq (hd : TagsDistinct s) (he : s.station n = some e) :
    failOver n s =
      probeListed (some e.current.other) n
        ((moveRecords n e.current.other
          (recordsDone ((s.pool.recordsOf n).filter (·.transmitted)) .resync s)).setStation n (some e.failedOver)) := by
  have hn := State.station_lt he
  have switched : (leaveProbeLists n s).onStation n Station.switchLine
      = probeListed none n (s.setStation n (some e.switchLine)) := by
    rw [leaveProbeLists_eq, probeListed_onStation, State.onStation_of_station he]
  have pool : (probeListed none n (s.setStation n (some e.switchLine))).pool = s.pool := State.setStation_pool ..
  obtain ⟨f, hf, released⟩ := resyncRelease_eq n
    (s := probeListed none n (s.setStation n (some e.switchLine))) (by rwa [TagsDistinct, pool])
  have busy : (f e.switchLine).toProbing = e.switchLine.toProbing := by
    rcases hf e.switchLine with h | h <;> rw [h]
    rfl
  have current : (f e.switchLine).current = e.current.other := by
    rcases hf e.switchLine with h | h <;> rw [h]
    · rfl
    · rfl
  have moved : moveRecords n e.current.other (resyncRelease n (probeListed none n (s.setStation n (some e.switchLine))))
      = probeListed none n
          ((moveRecords n e.current.other
            (recordsDone ((s.pool.recordsOf n).filter (·.transmitted)) .resync s)).setStation n
              (some (f e.switchLine))) := by
    rw [released, pool, recordsDone_probeListed, recordsDone_setStation, probeListed_onStation,
      State.onStation_of_station (State.station_setStation_same _ _ _ hn), State.setStation_setStation,
      ← moveRecords_setStation]
    rfl
  simp only [failOver, he]
  rw [switched, moved, enterProbing_eq (station_probeListed_setStation hn ..), probeListed_setStation,
    State.setStation_setStation, busy, current, probeListed_probeListed _ _ _ _ rfl, probeListed_onStation,
    State.onStation_of_station (State.station_setStation_same _ _ _ hn), State.setStation_setStation]
  rfl

/-! ### The threshold (R109, R112) -/

theorem compareThreshold_of_below (he : s.station n = some e) (h : e.failures < e.offlineThreshold) :
    compareThreshold n s = s := by
  simp [compareThreshold, he, Nat.not_le.2 h]

theorem compareThreshold_of_reached (he : s.station n = some e) (h : e.offlineThreshold ≤ e.failures) :
    compareThreshold n s = if failoverPossible e s then failOver n s else loseStation n s := by
  simp only [compareThreshold, he, h, if_true]

/-- R111, R120: what a failed exchange comes to, by the state of the station. -/
theorem stationFailed_of_online (he : s.station n = some e) (hs : e.state = .online) :
    stationFailed n s = compareThreshold n
      (s.setStation n (some (noticed { e with state := .suspect, failures := min (e.failures + 1) 15 } .failing))) := by
  simp only [stationFailed, he, hs]
  rfl

theorem stationFailed_of_suspect (he : s.station n = some e) (hs : e.state = .suspect ∨ e.state = .probing) :
    stationFailed n s = compareThreshold n (s.setStation n (some { e with failures := min (e.failures + 1) 15 })) := by
  rcases hs with hs | hs <;> simp only [stationFailed, he, hs] <;> rfl

theorem stationFailed_of_offline (he : s.station n = some e) (hs : e.state = .offline) :
    stationFailed n s = s.setStation n (some { e with failures := min (e.failures + 1) 15 }) := by
  simp only [stationFailed, he, hs]
  rfl

end

/-- Settles O46. -/
theorem failedExchangesLoseOrMoveStations : Obligations.FailedExchangesLoseOrMoveStations := by
  intro s l x n e hx hp ho hn he hpe hd idle risen records mayMove lost moved failing
  have hlt := State.station_lt he
  have he' : idle.station n = some e := (State.onLine_station ..).trans he
  have pool (f : Station) : (idle.setStation n (some f)).pool = s.pool := by
    rw [State.setStation_pool, State.onLine_pool]
  have mode (m : LineId) : (idle.line m).mode = (s.line m).mode := by
    rw [State.line_onLine]
    split
    next hm => rw [hm]
    next => rfl
  have entry (t : State) (f : Station) : (t.setStation n (some f)).station n = some f :=
    State.station_setStation_same _ _ _ hlt
  -- The station's entry has no disable pending after the failure either, so the exchange ends with what it came to.
  have ends {t : State} {f : Station} (ht : stationFailed n idle = t) (hf : t.station n = some f)
      (hc : f.pendingDisable = false) : exec (.gapExpiry l) s = .next t := by
    rw [exec_gapExpiry hx hp, expireGap_of_decided (by simp [ho]), endExchange_of_station hx hn,
      ← resolveDisable_of_clear hf hc, ← ht]
    simp [Exchange.result, ho, applyResult, idle]
  -- At the threshold the station moves or is lost, whether it was in SUSPECT before the failure or not.
  have reached (f : Station) (ht : f.offlineThreshold ≤ risen) (ha : f.alternate = e.alternate)
      (hcur : f.current = e.current) (hc : f.pendingDisable = false)
      (hfail : stationFailed n idle = compareThreshold n (idle.setStation n (some { f with failures := risen }))) :
      exec (.gapExpiry l) s = .next (if mayMove then moved f else lost f) := by
    have hm : failoverPossible { f with failures := risen }
        (idle.setStation n (some { f with failures := risen })) = true ↔ mayMove := by
      simp [failoverPossible, mayMove, mode, ha, hcur]
    have distinct : TagsDistinct (idle.setStation n (some { f with failures := risen })) := by rwa [TagsDistinct, pool]
    rw [compareThreshold_of_reached (entry ..) ht] at hfail
    by_cases may : mayMove
    · rw [if_pos may]
      rw [if_pos (hm.2 may), failOver_eq distinct (entry ..), pool, recordsDone_setStation, moveRecords_setStation,
        State.setStation_setStation] at hfail
      exact ends hfail (entry ..) hc
    · rw [if_neg may]
      rw [if_neg (hm.not.2 may)] at hfail
      by_cases probing : f.state = .probing
      · rw [loseStation_of_probing distinct (entry ..) probing, pool, recordsDone_setStation,
          State.setStation_setStation] at hfail
        exact (ends hfail (entry ..) hc).trans (congrArg _ (if_pos probing).symm)
      · rw [loseStation_of_suspect distinct (entry ..) probing, pool, recordsDone_setStation,
          State.setStation_setStation] at hfail
        exact (ends hfail (entry ..) hc).trans (congrArg _ (if_neg probing).symm)
  have below {f : Station} (h : f.failures < f.offlineThreshold) :
      compareThreshold n (idle.setStation n (some f)) = idle.setStation n (some f) :=
    compareThreshold_of_below (entry _ f) h
  refine ⟨fun hr => ⟨fun hs => ?_, fun hs => ?_⟩, fun hr => ⟨fun hs => ?_, fun hs => ?_⟩, fun hs => ?_⟩
  · exact ends ((stationFailed_of_online he' hs).trans (below hr)) (entry ..) hpe
  · exact ends ((stationFailed_of_suspect he' hs).trans (below hr)) (entry ..) hpe
  · exact reached failing hr rfl rfl hpe (stationFailed_of_online he' hs)
  · exact reached e hr rfl rfl hpe (stationFailed_of_suspect he' hs)
  · exact ends (stationFailed_of_offline he' hs) (entry ..) hpe

end Sys2Proof.Machine
end

section
/-! PROOF. Commands and broadcasts that the scheduler takes (R42, R43, R74, R75). -/

namespace Sys2Proof.Machine

section
variable {s : State} {l : LineId} {n : Nat} {e : Station} {q : CommandRecord}

/-! ### The first eligible record (R74, R91) -/

theorem recordEligible_of_broadcast (hq : q.station = none) : recordEligible s q = true := by
  simp [recordEligible, hq]

theorem recordEligible_of_oldest (hd : TagsDistinct s) (hm : q ∈ s.pool.records) (hq : q.station = some n)
    (he : s.station n = some e) (hs : e.state = .online ∨ e.state = .suspect) (hh : e.holdoffTimer = none)
    (hp : e.pendingDisable = false) (first : ∀ c ∈ s.pool.records.takeWhile (·.tag != q.tag), c.station ≠ some n) :
    recordEligible s q = true := by
  have oldest : s.pool.oldestOf n = some q.tag := by
    rw [Pool.oldestOf, Pool.recordsOf, oldestOf_of_takeWhile hd hm hq first, Option.map_some]
  have active : (e.state == .online || e.state == .suspect) = true := by simpa using hs
  simp [recordEligible, hq, he, active, hh, hp, oldest]

theorem eligibleRecord_of_first {before after : List CommandRecord} (hl : s.pool.orderList l = before ++ q :: after)
    (hb : ∀ c ∈ before, recordEligible s c = false) (hq : recordEligible s q = true) :
    eligibleRecord s l = some q := by
  have passed : before.find? (recordEligible s) = none := List.find?_eq_none.2 fun c hc => by simp [hb c hc]
  rw [eligibleRecord, hl, List.find?_append, passed, Option.none_or, List.find?_cons_of_pos hq]

theorem chooseWork_of_command (hs : streakAllows s l = true) (hq : eligibleRecord s l = some q) :
    chooseWork l s = takeRecord l q s := by
  have startable : commandStartable s l = true := by simp [commandStartable, hq, hs]
  simp [chooseWork, startable, hq]

/-! ### The record that starts (R42, R43, R97) -/

/-- R42: a COMMAND or BROADCAST as it starts. -/
def carrying (kind : ExchangeKind) (q : CommandRecord) (target : Nat) (control : Byte) (toggle : Bool) : Exchange :=
  { kind, station := q.station, target, record := some q.tag, holdsReservation := false, attempt := 1
    toggleSent := toggle, phase := .transmit, charsSent := 0, lastFailure := none, outcome := none
    frame := lineFrame target control q.payload, timer := none }

/-- R43, R97: the record as its first attempt starts. -/
def CommandRecord.started (c : CommandRecord) : CommandRecord :=
  { c with state := .inFlight, lastFailure := none, attempts := min (c.attempts + 1) 255 }

theorem onRecord_onRecord (tag : Half) {f g : CommandRecord → CommandRecord} (hf : ∀ r, (f r).tag = r.tag) (s : State) :
    onRecord tag g (onRecord tag f s) = onRecord tag (fun r => g (f r)) s := by
  have both (r : CommandRecord) : (if (if r.tag = tag then f r else r).tag = tag
        then g (if r.tag = tag then f r else r) else (if r.tag = tag then f r else r))
      = if r.tag = tag then g (f r) else r := by
    by_cases ht : r.tag = tag
    · simp [ht, hf]
    · simp [ht]
  simp only [onRecord, State.onPool, List.map_map]
  exact congrArg (fun records => ({ s with pool := { s.pool with records } } : State))
    (List.map_congr_left fun r _ => both r)

theorem startExchange_carrying (l : LineId) (kind : ExchangeKind) (q : CommandRecord) (target : Nat) (toggle : Bool)
    (s : State) :
    startExchange l kind q.station target (some q.tag) false toggle q.payload s =
      onRecord q.tag CommandRecord.started (s.onLine l fun ln =>
        { ln with
          driver := true
          exchange := some
            (carrying kind q target (controlByte (sentKindCode kind) toggle (kind == .probe)) toggle) }) := by
  rw [startExchange, beginAttempt, onCarried_of_some rfl, onCarried_of_some rfl,
    onRecord_onRecord (f := fun r => { r with state := .inFlight, lastFailure := none }) _ (fun _ => rfl),
    onRecord_of_onLine]
  rfl

/-- R70, R42: the record is taken, the counts with it. -/
def recordTaken (l : LineId) (q : CommandRecord) (kind : ExchangeKind) (target : Nat) (control : Byte) (toggle : Bool)
    (s : State) : State :=
  onRecord q.tag CommandRecord.started (s.onLine l fun ln =>
    { ln with
      commandCount := min (ln.commandCount + 1) ln.config.commandStreak, scanCount := 0, driver := true
      exchange := some (carrying kind q target control toggle) })

theorem takeRecord_of_broadcast (hq : q.station = none) :
    takeRecord l q s = recordTaken l q .broadcast 0 0x04#8 false s := by
  have started := startExchange_carrying l .broadcast q 0 false
    (s.onLine l fun ln => { ln with commandCount := min (ln.commandCount + 1) ln.config.commandStreak, scanCount := 0 })
  rw [hq, State.onLine_onLine] at started
  simp only [takeRecord, hq]
  exact started

theorem takeRecord_of_command (hq : q.station = some n) (he : s.station n = some e) :
    takeRecord l q s = recordTaken l q .command e.address (if e.toggle then 0x12#8 else 0x02#8) e.toggle s := by
  have control : controlByte (sentKindCode .command) e.toggle (ExchangeKind.command == .probe)
      = if e.toggle then 0x12#8 else 0x02#8 := by cases e.toggle <;> rfl
  have started := startExchange_carrying l .command q e.address e.toggle
    (s.onLine l fun ln => { ln with commandCount := min (ln.commandCount + 1) ln.config.commandStreak, scanCount := 0 })
  rw [hq, control, State.onLine_onLine] at started
  simp only [takeRecord, hq, State.onLine_station, he]
  exact started

end

/-- Settles O34. -/
theorem commandsAndBroadcastsAreTaken : Obligations.CommandsAndBroadcastsAreTaken := by
  intro s l before after q hm hst hx hend hsc htags hlist hbefore hallow taken
  have member : q ∈ s.pool.records := List.mem_of_mem_filter (hlist ▸ List.mem_append_right _ (List.mem_cons_self ..))
  have allows : streakAllows s l = true := by
    rcases hallow with below | none | full
    · simp [streakAllows, below]
    · simp [streakAllows, pollStartable, eligiblePoll, find?_walkOrder_none none]
    · have noSpace : s.queue.hasSpace = false := by
        rw [← Bool.not_eq_true, hasSpace_iff]
        omega
      simp [streakAllows, pollStartable, noSpace]
  have takes (hq : recordEligible s q = true) : exec (.schedulerChoice l) s = .next (takeRecord l q s) := by
    rw [exec_schedulerChoice hm hst hx hend hsc,
      chooseWork_of_command allows (eligibleRecord_of_first hlist hbefore hq)]
  have whole (kind : ExchangeKind) (target : Nat) (control : Byte) (toggle : Bool) :
      recordTaken l q kind target control toggle s = taken kind target control toggle := by
    rw [recordTaken, onRecord_eq, State.onLine_pool]
    rfl
  refine ⟨fun hq => ?_, fun n e hq he hs hh hp first => ?_⟩
  · rw [takes (recordEligible_of_broadcast hq), takeRecord_of_broadcast hq, whole]
  · rw [takes (recordEligible_of_oldest htags member hq he hs hh hp first), takeRecord_of_command hq he, whole]

end Sys2Proof.Machine
end

section
/-! PROOF. Scans and the line scheduler (R72, R73, R135, R136). -/

namespace Sys2Proof.Machine

section
variable {s : State} {l : LineId} {sc : Scan} {a : Nat}

/-! ### The address that a scan names (R135) -/

theorem nextUnclaimed_eq_some {next fuel : Nat} (hn : next ≤ a) (hf : a < next + fuel)
    (ha : s.addressClaimed l a = false) (hb : ∀ b, next ≤ b → b < a → s.addressClaimed l b = true) :
    nextUnclaimed s l next fuel = some a := by
  induction fuel generalizing next with
  | zero => omega
  | succ fuel ih =>
    rw [nextUnclaimed]
    rcases hn.eq_or_lt with rfl | hlt
    · rw [if_neg (by simp [ha])]
    · rw [if_pos (hb next (Nat.le_refl _) hlt)]
      exact ih hlt (by omega) fun b hb' => hb b (by omega)

theorem nextUnclaimed_eq_none {next fuel : Nat} (h : ∀ a, next ≤ a → a < next + fuel → s.addressClaimed l a = true) :
    nextUnclaimed s l next fuel = none := by
  induction fuel generalizing next with
  | zero => rfl
  | succ fuel ih =>
    rw [nextUnclaimed, if_pos (h next (Nat.le_refl _) (by omega))]
    exact ih fun a hn hf => h a (by omega) (by omega)

theorem scanNames_eq_some (hn : sc.next ≤ a) (hl : a ≤ sc.last) (ha : ¬s.addressClaimed l a = true)
    (hb : ∀ b, sc.next ≤ b → b < a → s.addressClaimed l b = true) : scanNames s l sc = some a :=
  nextUnclaimed_eq_some hn (by omega) (Bool.not_eq_true _ ▸ ha) hb

theorem scanNames_eq_none (h : ∀ a, sc.next ≤ a → a ≤ sc.last → s.addressClaimed l a = true) :
    scanNames s l sc = none := nextUnclaimed_eq_none fun a hn hf => h a hn (by omega)

/-! ### What is startable (R72 to R76, R83) -/

theorem mem_walkOrder {walk : Option Nat} {m : Nat} (hm : m < 48) : m ∈ walkOrder walk := by
  rw [walkOrder_eq, List.mem_map]
  exact ⟨(((m : Int) - walkStart walk) % 48).toNat, by simp; omega, by omega⟩

theorem eligibleRecord_isSome :
    (eligibleRecord s l).isSome
      ↔ ∃ q ∈ s.pool.records, q.state = .queued ∧ q.line = l ∧ recordEligible s q = true := by
  simp [eligibleRecord, Pool.orderList, and_assoc]

theorem eligiblePoll_isSome : (eligiblePoll s l).isSome ↔ ∃ m, m < 48 ∧ pollEligible s l m = true := by
  rw [eligiblePoll, List.find?_isSome]
  constructor
  · rintro ⟨m, -, hp⟩
    refine ⟨m, ?_, hp⟩
    by_contra hm
    simp [pollEligible, show s.station m = none by simp [State.station, hm]] at hp
  · rintro ⟨m, hm, hp⟩
    exact ⟨m, mem_walkOrder hm, hp⟩

theorem eligibleProbe_isSome : (eligibleProbe s l).isSome ↔ ∃ m ∈ (s.line l).probeList, probeEligible s m = true := by
  rw [eligibleProbe, List.find?_isSome]

/-- R75: a command that the streak holds back is held back by a startable poll. -/
theorem anyStartable_iff :
    (commandStartable s l || pollStartable s l || probeStartable s l) = true
      ↔ (eligibleRecord s l).isSome
        ∨ s.queue.hasSpace = true ∧ ((eligiblePoll s l).isSome ∨ (eligibleProbe s l).isSome) := by
  simp only [commandStartable, streakAllows, pollStartable, probeStartable, Bool.or_eq_true, Bool.and_eq_true,
    Bool.not_eq_true']
  cases (eligibleRecord s l).isSome <;> cases (eligiblePoll s l).isSome <;> cases s.queue.hasSpace <;> simp

theorem interleaveAllows_of_below (h : (s.line l).scanCount < (s.line l).config.scanStreak) :
    interleaveAllows s l = true := by simp [interleaveAllows, h]

theorem interleaveAllows_of_reached (h : (s.line l).config.scanStreak ≤ (s.line l).scanCount) :
    interleaveAllows s l = !(commandStartable s l || pollStartable s l || probeStartable s l) := by
  simp [interleaveAllows, Nat.not_lt.2 h]

/-! ### The choice leaves the scan aside -/

theorem commandStartable_withScan (o : Option Scan) :
    commandStartable (s.onLine l (Line.withScan o)) l = commandStartable s l := by cases l <;> rfl

theorem pollStartable_withScan (o : Option Scan) :
    pollStartable (s.onLine l (Line.withScan o)) l = pollStartable s l := by cases l <;> rfl

theorem probeStartable_withScan (o : Option Scan) :
    probeStartable (s.onLine l (Line.withScan o)) l = probeStartable s l := by cases l <;> rfl

theorem eligibleRecord_withScan (o : Option Scan) :
    eligibleRecord (s.onLine l (Line.withScan o)) l = eligibleRecord s l := by cases l <;> rfl

theorem eligiblePoll_withScan (o : Option Scan) :
    eligiblePoll (s.onLine l (Line.withScan o)) l = eligiblePoll s l := by cases l <;> rfl

theorem eligibleProbe_withScan (o : Option Scan) :
    eligibleProbe (s.onLine l (Line.withScan o)) l = eligibleProbe s l := by cases l <;> rfl

theorem startExchange_withScan (kind : ExchangeKind) (station : Option Nat) (target : Nat) (record : Option Half)
    (holds toggle : Bool) (payload : List Byte) (o : Option Scan) (s : State) :
    startExchange l kind station target record holds toggle payload (s.onLine l (Line.withScan o)) =
      (startExchange l kind station target record holds toggle payload s).onLine l (Line.withScan o) := by
  simp only [startExchange, beginAttempt, ← onCarried_onLine, State.onLine_onLine]
  rfl

theorem takeRecord_withScan (q : CommandRecord) (o : Option Scan) :
    takeRecord l q (s.onLine l (Line.withScan o)) = (takeRecord l q s).onLine l (Line.withScan o) := by
  have counted : (s.onLine l (Line.withScan o)).onLine l (fun ln =>
        { ln with commandCount := min (ln.commandCount + 1) ln.config.commandStreak, scanCount := 0 })
      = (s.onLine l fun ln =>
        { ln with commandCount := min (ln.commandCount + 1) ln.config.commandStreak, scanCount := 0 }).onLine l
          (Line.withScan o) := by
    rw [State.onLine_onLine, State.onLine_onLine]
    rfl
  simp only [takeRecord, counted, State.onLine_station]
  split
  · exact startExchange_withScan ..
  · split
    · rfl
    · exact startExchange_withScan ..

theorem takePoll_withScan (n : Nat) (o : Option Scan) :
    takePoll l n (s.onLine l (Line.withScan o)) = (takePoll l n s).onLine l (Line.withScan o) := by
  cases he : s.station n with
  | none => simp only [takePoll, State.onLine_station, he]
  | some e =>
    have granted : grant (s.onLine l (Line.withScan o)) = (grant s).onLine l (Line.withScan o) := by cases l <;> rfl
    simp only [takePoll, State.onLine_station, he]
    rw [granted, ← State.setStation_onLine, ← startExchange_withScan, State.onLine_onLine, State.onLine_onLine]
    rfl

theorem takeProbe_withScan (n : Nat) (o : Option Scan) :
    takeProbe l n (s.onLine l (Line.withScan o)) = (takeProbe l n s).onLine l (Line.withScan o) := by
  cases he : s.station n with
  | none => simp only [takeProbe, State.onLine_station, he]
  | some e =>
    have granted : grant (s.onLine l (Line.withScan o)) = (grant s).onLine l (Line.withScan o) := by cases l <;> rfl
    have config : ((s.onLine l (Line.withScan o)).line l).config = (s.line l).config := by cases l <;> rfl
    simp only [takeProbe, State.onLine_station, he, config]
    rw [granted, ← State.setStation_onLine, ← startExchange_withScan, State.onLine_onLine, State.onLine_onLine]
    rfl

/-- R72: steps 2 to 4 neither read nor write the scan. -/
theorem chooseWork_withScan (o : Option Scan) :
    chooseWork l (s.onLine l (Line.withScan o)) = (chooseWork l s).onLine l (Line.withScan o) := by
  unfold chooseWork
  rw [commandStartable_withScan, pollStartable_withScan, probeStartable_withScan, eligibleRecord_withScan,
    eligiblePoll_withScan, eligibleProbe_withScan]
  split
  · split
    · rfl
    · exact takeRecord_withScan ..
  · split
    · split
      · rfl
      · exact takePoll_withScan ..
    · split
      · split
        · rfl
        · exact takeProbe_withScan ..
      · rfl

/-! ### The choice on a line with a scan -/

theorem exec_schedulerChoice_of_busy
    (h : (s.line l).mode ≠ .active ∨ (s.line l).stuck = true ∨ (s.line l).exchange.isSome) :
    exec (.schedulerChoice l) s = .next s := by
  have busy : ¬(s.line l).free = true := by
    simp only [Line.free, Bool.and_eq_true, Bool.not_eq_true', Option.isNone_iff_eq_none, beq_iff_eq]
    rintro ⟨⟨⟨active, clear⟩, none⟩, -⟩
    rcases h with h | h | h
    · exact h active
    · simp [h] at clear
    · simp [none] at h
  exact congrArg _ (if_neg busy)

theorem exec_schedulerChoice_of_free (hm : (s.line l).mode = .active) (hst : (s.line l).stuck = false)
    (hx : (s.line l).exchange = none) (he : (s.line l).ending = none) :
    exec (.schedulerChoice l) s = .next (choose l s) :=
  congrArg Host.Outcome.next (if_pos (by simp [Line.free, hm, hst, hx, he]))

theorem choose_of_named (hsc : (s.line l).scan = some sc) (ha : scanNames s l sc = some a) :
    choose l s =
      if interleaveAllows s l then takeRollCall l sc a s
      else chooseWork l (s.onLine l (Line.withScan (some { sc with next := a }))) := by
  simp only [choose, hsc, ha]
  rfl

theorem choose_of_claimed (hsc : (s.line l).scan = some sc) (ha : scanNames s l sc = none) :
    choose l s = chooseWork l (endScan l .complete s) := by
  simp only [choose, hsc, ha]

/-- R42: a ROLL_CALL as it starts. -/
def rollCalling (a : Nat) : Exchange :=
  { kind := .rollCall, station := none, target := a, record := none, holdsReservation := false, attempt := 1
    toggleSent := false, phase := .transmit, charsSent := 0, lastFailure := none, outcome := none
    frame := lineFrame a 0x05#8 [], timer := none }

theorem takeRollCall_eq (sc : Scan) (a : Nat) (s : State) :
    takeRollCall l sc a s =
      s.onLine l fun ln =>
        { ln with
          scan := some { sc with next := a + 1, rollCall := true }
          scanCount := min (ln.scanCount + 1) ln.config.scanStreak
          commandCount := 0
          driver := true
          exchange := some (rollCalling a) } := by
  rw [takeRollCall, startExchange, onCarried_of_none rfl, beginAttempt_of_none rfl, State.onLine_onLine]
  rfl

end

/-- Settles O35. -/
theorem scansTakeTheLine : Obligations.ScansTakeTheLine := by
  intro s l claimed
  refine ⟨exec_schedulerChoice_of_busy, fun sc hm hst hx hend hsc => ?_⟩
  intro startable
  have claims (a : Nat) : s.addressClaimed l a = true ↔ claimed a := addressClaimed_iff s l a
  have names {a : Nat} (hn : sc.next ≤ a) (hl : a ≤ sc.last) (ha : ¬claimed a)
      (hb : ∀ b, sc.next ≤ b → b < a → claimed b) : scanNames s l sc = some a :=
    scanNames_eq_some hn hl ((claims a).not.2 ha) fun b hn hb' => (claims b).2 (hb b hn hb')
  have any : (commandStartable s l || pollStartable s l || probeStartable s l) = true ↔ startable := by
    rw [anyStartable_iff, eligibleRecord_isSome, eligiblePoll_isSome, eligibleProbe_isSome, hasSpace_iff]
  have chooses := exec_schedulerChoice_of_free hm hst hx hend
  refine ⟨fun a hn hl ha hb hstreak hs => ?_, fun a hn hl ha hb hor => ?_, fun hall => ?_⟩
  · have yields : interleaveAllows s l = false := by
      rw [interleaveAllows_of_reached hstreak, any.2 hs]
      rfl
    have line := State.line_onLine_same s l (Line.withScan none)
    refine ⟨chooseWork l (s.onLine l (Line.withScan none)), ?_, ?_⟩
    · exact exec_schedulerChoice (s := s.onLine l (Line.withScan none)) (by rw [line]; exact hm)
        (by rw [line]; exact hst) (by rw [line]; exact hx) (by rw [line]; exact hend) (by rw [line]; rfl)
    · rw [chooses, choose_of_named hsc (names hn hl ha hb), yields, if_neg Bool.false_ne_true, chooseWork_withScan,
        chooseWork_withScan, State.onLine_onLine]
      rfl
  · have allows : interleaveAllows s l = true := by
      rcases hor with below | none
      · exact interleaveAllows_of_below below
      · rcases lt_or_ge (s.line l).scanCount (s.line l).config.scanStreak with below | reached
        · exact interleaveAllows_of_below below
        · rw [interleaveAllows_of_reached reached, Bool.eq_false_iff.2 (any.not.2 none)]
          rfl
    rw [chooses, choose_of_named hsc (names hn hl ha hb), if_pos allows, takeRollCall_eq]
    rfl
  · have ended : (scanEnded l .complete s).line l = (s.line l).withScan none := by
      simp only [scanEnded, hsc]
      rw [converted_line, State.line_onLine_same]
      rfl
    rw [chooses, choose_of_claimed hsc (scanNames_eq_none fun a hn hl => (claims a).2 (hall a hn hl)), endScan_eq]
    exact (exec_schedulerChoice (by rw [ended]; exact hm) (by rw [ended]; exact hst) (by rw [ended]; exact hx)
      (by rw [ended]; exact hend) (by rw [ended]; rfl)).symm

end Sys2Proof.Machine
end

end

/- These declarations too are elaborated one after another. -/
section
set_option Elab.async false

section
/-! PROOF. REQUEST_POLL (R80), START_SCAN, CANCEL_SCAN and START_LINE_TEST (R134, R138, R139): requests that are
refused by their checks in order, and otherwise answered with a status alone. -/

namespace Sys2Proof.Machine

/-! ### A plain answer, by the checks in order -/

/-- R168, R186: the owner answers the request r with a status alone, and the response queued leaves the state u. -/
def Applied.Gives (r : Request) (a : Applied) (u : State) : Prop :=
  ∃ t status, a = ⟨t, some (.plain status)⟩ ∧ answered r status [] t = u

section
variable {s : State} {r : Request} {rest : List Request} {status : Status}

theorem refuse_gives : (refuse status (headTaken rest s)).Gives r (refusedWith r rest status s) := ⟨_, _, rfl, rfl⟩

theorem answer_gives {t u : State} (h : t = u) : (answer status t).Gives r (answered r status [] u) :=
  ⟨_, _, rfl, by rw [h]⟩

/-- One check: the owner's condition is the statement's. -/
theorem Applied.Gives.ite {p q : Prop} [Decidable p] [Decidable q] {a b : Applied} {u v : State} (h : p ↔ q)
    (ha : a.Gives r u) (hb : b.Gives r v) : (if p then a else b).Gives r (if q then u else v) := by
  by_cases hp : p
  · rwa [if_pos hp, if_pos (h.1 hp)]
  · rwa [if_neg hp, if_neg (mt h.2 hp)]

/-- One check that refuses. -/
theorem Applied.Gives.check {p q : Prop} [Decidable p] [Decidable q] {b : Applied} {v : State} (h : p ↔ q)
    (hb : b.Gives r v) :
    (if p then refuse status (headTaken rest s) else b).Gives r (if q then refusedWith r rest status s else v) :=
  .ite h refuse_gives hb

/-- R151: the report queue has no space. -/
theorem noSpace_iff : (!s.queue.hasSpace) = true ↔ 128 ≤ s.queue.entries.length + s.queue.reservations := by
  rw [Bool.not_eq_true', ← Bool.not_eq_true, hasSpace_iff, Nat.not_lt]

/-! ### A request that names a line (R182) -/

variable {f : LineId → Applied} {g : LineId → State} {line : Byte}

theorem withLine_gives {body : List Byte} (hline : u8At body 1 = line.toNat) (hf : ∀ l, (f l).Gives r (g l)) :
    (withLine body (headTaken rest s) f).Gives r (lineRequest r rest line s g) := by
  rw [withLine, hline, lineRequest]
  by_cases ha : line = 0
  · subst ha
    exact hf .a
  by_cases hb : line = 1
  · subst hb
    exact hf .b
  · have high : 1 < line.toNat := by bv_omega
    rw [lineOf_of_lt high, if_neg ha, if_neg hb]
    exact refuse_gives

/-- R168: such a request, handed to its owner, comes to what the owner's answer for the line gives. -/
theorem takeRequest_of_withLine {code : Nat} {apply : List Byte → State → Applied} (h : Handed s r rest)
    (hc : requestCode r.body = some code) (hl : lengthFits r.body = true) (h4 : code ≠ 4)
    (hline : u8At r.body 1 = line.toNat) (ha : apply r.body (headTaken rest s) = withLine r.body (headTaken rest s) f)
    (hf : ∀ l, (f l).Gives r (g l)) : takeRequest code false apply s = lineRequest r rest line s g := by
  obtain ⟨t, status, answers, hu⟩ := withLine_gives (s := s) (rest := rest) hline hf
  rw [← hu]
  exact takeRequest_of_apply h hc hl h4 (ha.trans answers)

/-! ### What the line requests check and do -/

/-- R134: the addresses of a scan are out of range. -/
theorem scanRange_refused_iff (first last : Nat) :
    (!addressInRange first ∨ !addressInRange last ∨ last < first ∨ 32 < last + 1 - first)
      ↔ ¬(1 ≤ first ∧ first ≤ last ∧ last ≤ 250 ∧ last - first < 32) := by
  simp only [addressInRange, Bool.not_eq_true', Bool.and_eq_false_iff, decide_eq_false_iff_not]
  omega

/-- R139: the line is in TEST with its first frame in SENDING, its notice set and a reservation granted. -/
theorem startTest_eq (l : LineId) (count : Nat) (s : State) :
    startTest l count s =
      (grant s).onLine l fun ln =>
        lineNoticed
          { ln with
            mode := .test, awaitsMark := false
            test := some ⟨count, 0, 0, 0, none, .sending, 0, false, none, none⟩ }
          .testStarted := by
  rw [startTest, raiseLineNotice_eq, State.onLine_onLine]

/-- R138: the end of a scan that runs. -/
theorem endScan_of_some {l : LineId} {sc : Scan} (status : ScanStatus) (h : (s.line l).scan = some sc) :
    endScan l status s =
      converted (.scanDone l status sc.responders) (s.onLine l fun ln => { ln with scan := none }) := by
  rw [endScan_eq, scanEnded, h]

end

/-- Settles O22, by the state of the station. -/
theorem requestPollSetsTheDueMark : Obligations.RequestPollSetsTheDueMark := by
  intro s r rest n h hb
  have hc : requestCode r.body = some 0x17 := by rw [hb]; rfl
  have hl : lengthFits r.body = true := by rw [hb]; rfl
  have hn : u8At r.body 1 = n.toNat := by rw [hb]; rfl
  refine congrArg Host.Outcome.next (takeRequest_of_withStation h hc hl (by decide) hn rfl fun e _ => ?_)
  cases e.state with
  | disabled | probing | offline => exact refuse_gives
  | online | suspect => exact answer_gives rfl

/-- Settles O28, check by check. -/
theorem scansAndTestsStart : Obligations.ScansAndTestsStart := by
  intro s r rest line b c h noSpace granted
  refine ⟨fun hb => ?_, fun hb => ?_, fun hb => ?_⟩
  all_goals
    have hl : lengthFits r.body = true := by rw [hb]; rfl
    have hline : u8At r.body 1 = line.toNat := by rw [hb]; rfl
  · have hc : requestCode r.body = some 0x43 := by rw [hb]; rfl
    have hfirst : u8At r.body 2 = b.toNat := by rw [hb]; rfl
    have hlast : u8At r.body 3 = c.toNat := by rw [hb]; rfl
    refine congrArg Host.Outcome.next (takeRequest_of_withLine h hc hl (by decide) hline rfl fun l => ?_)
    simp only [hfirst, hlast, headTaken_line]
    exact .check (scanRange_refused_iff _ _) (.check .rfl (.check .rfl (.check noSpace_iff (answer_gives rfl))))
  · have hc : requestCode r.body = some 0x44 := by rw [hb]; rfl
    refine congrArg Host.Outcome.next (takeRequest_of_withLine h hc hl (by decide) hline rfl fun l => ?_)
    rw [headTaken_line]
    cases hs : (s.line l).scan with
    | none => exact refuse_gives
    | some sc => exact answer_gives (endScan_of_some .cancelled (by rw [headTaken_line, hs]))
  · have hc : requestCode r.body = some 0x45 := by rw [hb]; rfl
    have hcount : u8At r.body 2 = b.toNat := by rw [hb]; rfl
    have hzero : b.toNat = 0 ↔ b = 0 := by bv_omega
    refine congrArg Host.Outcome.next (takeRequest_of_withLine h hc hl (by decide) hline rfl fun l => ?_)
    simp only [hcount, headTaken_line]
    exact .check hzero (.check .rfl (.check .rfl (.check noSpace_iff (answer_gives (startTest_eq ..)))))

end Sys2Proof.Machine
end

end

/- These declarations too are elaborated one after another. -/
section
set_option Elab.async false

section
/-! PROOF. SUBMIT_COMMAND and SUBMIT_BROADCAST (R95, R96): their checks in order, and the record they create. -/

namespace Sys2Proof.Machine

section
variable {s : State} {r : Request} {rest : List Request}

/-- R168: a request handed to its owner comes to what the owner's answer gives. -/
theorem takeRequest_of_gives {code : Nat} {apply : List Byte → State → Applied} {u : State} (h : Handed s r rest)
    (hc : requestCode r.body = some code) (hl : lengthFits r.body = true) (h4 : code ≠ 4)
    (ha : (apply r.body (headTaken rest s)).Gives r u) : takeRequest code false apply s = u := by
  obtain ⟨t, status, answers, hu⟩ := ha
  rw [← hu]
  exact takeRequest_of_apply h hc hl h4 answers

/-! ### The fields of a submission -/

variable {body payload : List Byte} {n length : Byte}

/-- R184: a submission is as long as its stated payload makes it. -/
theorem submission_lengthFits {code low high : Byte} (hcode : code = 0x30 ∨ code = 0x31)
    (hp : payload.length = length.toNat) : lengthFits (code :: low :: high :: n :: length :: payload) = true := by
  have stated : requestLength (code :: low :: high :: n :: length :: payload) = some (5 + length.toNat) := by
    rcases hcode with rfl | rfl <;> rfl
  rw [lengthFits, stated, ← hp, beq_iff_eq]
  simp only [List.length_cons, Option.some.injEq]
  omega

/-- R95, R96: the stated payload length is out of range. -/
theorem payload_refused_iff (hl : u8At body 4 = length.toNat) :
    (!payloadInRange body) = true ↔ length = 0 ∨ 32 < length.toNat := by
  have zero : length = 0 ↔ length.toNat < 1 := by bv_omega
  simp only [payloadInRange, hl, Config.maxPayload, zero, Bool.not_eq_true', Bool.and_eq_false_iff,
    decide_eq_false_iff_not, Nat.not_le]

/-- R93: the tag is a live record's. -/
theorem Pool.find_isSome_iff {p : Pool} {tag : Half} : (p.find tag).isSome = true ↔ ∃ q ∈ p.records, q.tag = tag := by
  simp [Pool.find]

/-! ### A request that names a line, by the line its byte names -/

variable {g : LineId → State}

theorem lineRequest_of_none (h : lineOf n.toNat = none) :
    lineRequest r rest n s g = refusedWith r rest .badParameter s := by
  have ha : n ≠ 0 := by rintro rfl; cases h
  have hb : n ≠ 1 := by rintro rfl; cases h
  rw [lineRequest, if_neg ha, if_neg hb]

theorem lineRequest_of_some {l : LineId} (h : lineOf n.toNat = some l) : lineRequest r rest n s g = g l := by
  by_cases ha : n = 0
  · subst ha
    exact congrArg g (Option.some.inj h)
  by_cases hb : n = 1
  · subst hb
    exact congrArg g (Option.some.inj h)
  have high : 1 < n.toNat := by bv_omega
  rw [lineOf_of_lt high] at h
  cases h

/-! ### SUBMIT_COMMAND up to the station's state -/

/-- R95: checks 1 to 4, by what the checks that follow give for the entry. -/
theorem applySubmitCommand_gives {g : Station → State} (hn : u8At body 3 = n.toNat) (hl : u8At body 4 = length.toNat)
    (hg : ∀ e, (submitForStation n.toNat e body (headTaken rest s)).Gives r (g e)) :
    (applySubmitCommand body (headTaken rest s)).Gives r
      (if length = 0 ∨ 32 < length.toNat then refusedWith r rest .badParameter s
      else
        stationRequest r rest n s fun e =>
          if e.state = .disabled then refusedWith r rest .stationDisabled s
          else if e.state = .offline then refusedWith r rest .stationOffline s
          else g e) := by
  unfold applySubmitCommand
  simp only [payload_refused_iff hl, hn, headTaken_station]
  by_cases hbad : length = 0 ∨ 32 < length.toNat
  · rw [if_pos (.inr hbad), if_pos hbad]
    exact refuse_gives
  by_cases h47 : 47 < n.toNat
  · rw [if_pos (.inl h47), if_neg hbad, stationRequest_of_high h47]
    exact refuse_gives
  have passed : ¬(Config.stations ≤ n.toNat ∨ length = 0 ∨ 32 < length.toNat) := not_or.2 ⟨h47, hbad⟩
  rw [if_neg passed, if_neg hbad]
  cases he : s.station n.toNat with
  | none =>
    rw [stationRequest_of_none h47 he]
    exact refuse_gives
  | some e =>
    rw [stationRequest_of_some h47 he]
    dsimp only
    cases hs : e.state with
    | disabled | offline => exact refuse_gives
    | probing | online | suspect => exact hg e

end

/-- Settles O23, check by check. -/
theorem submissionsCreateRecords : Obligations.SubmissionsCreateRecords := by
  intro s r rest low high n length payload h hp tag lengthBad tagLive poolFull noSpace accepted
  refine ⟨fun hb => ?_, fun hb => ?_⟩
  all_goals
    have hlength : u8At r.body 4 = length.toNat := by rw [hb]; rfl
    have named : u8At r.body 3 = n.toNat := by rw [hb]; rfl
    have htag : tagOf r.body = tag := by rw [hb]; rfl
    have hpayload : r.body.drop 5 = payload := by rw [hb]; rfl
  · have hc : requestCode r.body = some 0x30 := by rw [hb]; rfl
    have hl : lengthFits r.body = true := by rw [hb]; exact submission_lengthFits (.inl rfl) hp
    refine congrArg Host.Outcome.next
      (takeRequest_of_gives h hc hl (by decide) (applySubmitCommand_gives named hlength fun e => ?_))
    rw [submitForStation, htag, hpayload]
    exact .check Pool.find_isSome_iff (.check .rfl (.check .rfl (.check noSpace_iff (answer_gives rfl))))
  · have hc : requestCode r.body = some 0x31 := by rw [hb]; rfl
    have hl : lengthFits r.body = true := by rw [hb]; exact submission_lengthFits (.inr rfl) hp
    refine congrArg Host.Outcome.next (takeRequest_of_gives h hc hl (by decide) ?_)
    rw [applySubmitBroadcast, named]
    cases hline : lineOf n.toNat with
    | none =>
      rw [lineRequest_of_none hline, ite_self]
      exact refuse_gives
    | some l =>
      rw [lineRequest_of_some hline, htag, hpayload]
      exact .check (payload_refused_iff hlength)
        (.check Pool.find_isSome_iff (.check .rfl (.check noSpace_iff (answer_gives rfl))))

end Sys2Proof.Machine
end

section
/-! PROOF. CANCEL_COMMAND (R103): the record of a tag, and the busy streak of its station (R99). -/

namespace Sys2Proof.Machine

section
variable {s : State} {p : Pool} {q : CommandRecord} {tag : Half} {n : Nat}

theorem Pool.find_eq_none (h : ∀ q ∈ p.records, q.tag ≠ tag) : p.find tag = none :=
  List.find?_eq_none.2 fun q hq => by simpa using h q hq

/-- R90: a record is not its station's oldest when one before it in the pool is the station's. -/
theorem oldestOf_ne_of_earlier {c : CommandRecord} (hc : c ∈ p.records.takeWhile (·.tag != tag))
    (hn : c.station = some n) : p.oldestOf n ≠ some tag := by
  have found : c ∈ (p.records.takeWhile (·.tag != tag)).filter (·.station == some n) :=
    List.mem_filter.2 ⟨hc, beq_iff_eq.2 hn⟩
  obtain ⟨a, as, first⟩ := List.exists_cons_of_ne_nil (List.ne_nil_of_mem found)
  have early : a ∈ p.records.takeWhile (·.tag != tag) := by
    refine (List.mem_filter (p := (·.station == some n)).1 ?_).1
    rw [first]
    exact List.mem_cons_self
  have oldest : p.oldestOf n = some a.tag := by
    rw [Pool.oldestOf, Pool.recordsOf, ← List.takeWhile_append_dropWhile (p := (·.tag != tag)) (l := p.records),
      List.filter_append, first]
    rfl
  have differ : a.tag ≠ tag := bne_iff_ne.1 (List.mem_takeWhile_imp (p := fun c : CommandRecord => c.tag != tag) early)
  rw [oldest]
  exact mt Option.some.inj differ

variable (o : CommandOutcome) (d : List Byte)

/-- R99: a record completes that is not its station's oldest. -/
theorem completeRecord_of_later {c : CommandRecord} (hd : TagsDistinct s) (hn : q.station = some n)
    (hc : c ∈ s.pool.records.takeWhile (·.tag != q.tag)) (hcn : c.station = some n) :
    completeRecord q o d s = recordDone q o d s := by
  have later : s.pool.isOldest q = false := by simp [Pool.isOldest, hn, oldestOf_ne_of_earlier hc hcn]
  simp [completeRecord_eq _ _ _ hd, resetBusyStreak, hn, later]

/-- R99: a record completes that is its station's oldest, whether the station is defined or not. -/
theorem completeRecord_of_first (hd : TagsDistinct s) (hq : q ∈ s.pool.records) (hn : q.station = some n)
    (first : ∀ c ∈ s.pool.records.takeWhile (·.tag != q.tag), c.station ≠ some n) :
    completeRecord q o d s = (recordDone q o d s).onStation n fun e => { e with busyStreak := 0 } := by
  have oldest : s.pool.isOldest q = true := by
    simp [Pool.isOldest, Pool.oldestOf, Pool.recordsOf, hn, oldestOf_of_takeWhile hd hq hn first]
  simp [completeRecord_eq _ _ _ hd, resetBusyStreak, hn, oldest]

end

/-- Settles O24, by the record that the tag finds. -/
theorem cancelCommandFindsTheRecord : Obligations.CancelCommandFindsTheRecord := by
  intro s r rest low high h hd hb tag
  have hc : requestCode r.body = some 0x32 := by rw [hb]; rfl
  have hl : lengthFits r.body = true := by rw [hb]; rfl
  have htag : tagOf r.body = tag := by rw [hb]; rfl
  have comes {u : State} (hu : (applyCancelCommand r.body (headTaken rest s)).Gives r u) :
      exec .cancelCommand s = .next u :=
    congrArg Host.Outcome.next (takeRequest_of_gives h hc hl (by decide) hu)
  refine ⟨fun free => comes ?_, fun q hq hqt inFlight => comes ?_, fun q hq hqt queued => comes ?_⟩
  all_goals rw [applyCancelCommand, headTaken_pool, htag]
  · rw [Pool.find_eq_none free]
    exact refuse_gives
  · rw [← hqt, Pool.find_of_mem hd hq]
    simp only [inFlight]
    exact answer_gives rfl
  · rw [← hqt, Pool.find_of_mem hd hq]
    simp only [queued]
    refine answer_gives ?_
    cases hn : q.station with
    | none => exact completeRecord_of_broadcast _ _ hd hn
    | some n =>
      dsimp only
      split
      next earlier =>
        obtain ⟨c, hc, hcn⟩ := earlier
        exact completeRecord_of_later _ _ hd hn hc hcn
      next first => exact completeRecord_of_first _ _ hd hq hn fun c hc hcn => first ⟨c, hc, hcn⟩

end Sys2Proof.Machine
end

end

/- These declarations too are elaborated one after another. -/
section
set_option Elab.async false

section
/-! PROOF. READ_LINE_STATUS (R142): its two views byte by byte, as R186 lays them out. -/

namespace Sys2Proof.Machine

/-! ### A map of bits, byte by byte -/

/-- The number whose bits at the positions below n are the flags p. -/
def bitMap (p : Nat → Bool) (n : Nat) : Nat := ((List.range n).map fun j => flagBit (p j) j).sum

theorem bitMap_succ (p : Nat → Bool) (n : Nat) : bitMap p (n + 1) = bitMap p n + flagBit (p n) n := by
  simp [bitMap, List.range_succ]

theorem bitMap_eq_sum (p : Nat → Bool) (n : Nat) : bitMap p n = ∑ j ∈ Finset.range n, flagBit (p j) j := by
  induction n with
  | zero => rfl
  | succ n ih => rw [bitMap_succ, Finset.sum_range_succ, ih]

theorem bitMap_lt (p : Nat → Bool) (n : Nat) : bitMap p n < 2 ^ n := by
  induction n with
  | zero => exact Nat.one_pos
  | succ n ih =>
    rw [bitMap_succ, Nat.pow_succ]
    have : flagBit (p n) n ≤ 2 ^ n := by
      rw [flagBit]
      split <;> simp
    omega

/-- A map of m + n bits: its low m bits, and above them its high n bits. -/
theorem bitMap_add (p : Nat → Bool) (m n : Nat) :
    bitMap p (m + n) = bitMap p m + 2 ^ m * bitMap (fun j => p (m + j)) n := by
  induction n with
  | zero => simp [bitMap]
  | succ n ih =>
    have top : flagBit (p (m + n)) (m + n) = 2 ^ m * flagBit (p (m + n)) n := by
      rw [flagBit, flagBit, mul_ite, mul_zero, pow_add]
    rw [← Nat.add_assoc, bitMap_succ, bitMap_succ, ih, top]
    ring

/-- A byte of a map, cut out at the position where it stands. -/
theorem b8_bitMap_div (p : Nat → Bool) {i n : Nat} (h : 8 * i + 8 ≤ n) :
    b8 (bitMap p n / 2 ^ (8 * i)) = b8 (bitMap (fun j => p (8 * i + j)) 8) := by
  obtain ⟨k, rfl⟩ := Nat.exists_eq_add_of_le h
  rw [Nat.add_assoc, bitMap_add p, Nat.add_mul_div_left _ _ (Nat.two_pow_pos _), Nat.div_eq_of_lt (bitMap_lt ..),
    Nat.zero_add, bitMap_add]
  apply BitVec.eq_of_toNat_eq
  simp [b8]

/-- R182: the four bytes of a map of 32 bits, least significant first. -/
theorem bytes_bitMap (p : Nat → Bool) :
    le16 (bitMap p 32) ++ le16 (bitMap p 32 / 65536)
      = (List.range 4).map fun i => b8 (bitMap (fun j => p (8 * i + j)) 8) := by
  have cut : ∀ i ∈ List.range 4, b8 (bitMap (fun j => p (8 * i + j)) 8) = b8 (bitMap p 32 / 2 ^ (8 * i)) :=
    fun i hi => (b8_bitMap_div p (by have := List.mem_range.1 hi; omega)).symm
  rw [List.map_congr_left cut, le16, le16, Nat.div_div_eq_div_mul]
  simp [List.range_succ]

/-! ### The fields of the views -/

section
variable {s : State} {rest : List Request} {l : LineId}

/-- R133, R186: the responders of a scan, by the addresses that answered. -/
theorem responderMap_eq {sc : Scan} (distinct : sc.responders.Nodup)
    (inside : ∀ a ∈ sc.responders, sc.first ≤ a ∧ a < sc.first + 32) :
    responderMap sc = bitMap (fun k => sc.responders.contains (sc.first + k)) 32 := by
  rw [responderMap, ← List.sum_toFinset _ distinct, bitMap_eq_sum]
  simp only [flagBit, List.contains_iff_mem]
  rw [← Finset.sum_filter]
  refine Finset.sum_nbij' (· - sc.first) (sc.first + ·) (fun a ha => ?_) (fun k hk => ?_) (fun a ha => ?_)
    (fun k _ => Nat.add_sub_cancel_left ..) fun _ _ => rfl
  · have ha := List.mem_toFinset.1 ha
    obtain ⟨low, high⟩ := inside a ha
    simp only [Finset.mem_filter, Finset.mem_range, Nat.add_sub_cancel' low]
    exact ⟨by omega, ha⟩
  · exact List.mem_toFinset.2 (Finset.mem_filter.1 hk).2
  · exact Nat.add_sub_cancel' (inside a (List.mem_toFinset.1 ha)).1

/-- R186: the four bytes of a scan's responders. -/
theorem responderBytes_eq {sc : Scan} (distinct : sc.responders.Nodup)
    (inside : ∀ a ∈ sc.responders, sc.first ≤ a ∧ a < sc.first + 32) :
    le16 (responderMap sc) ++ le16 (responderMap sc / 65536)
      = (List.range 4).map fun i => b8 (bitMap (fun j => sc.responders.contains (sc.first + 8 * i + j)) 8) := by
  rw [responderMap_eq distinct inside, bytes_bitMap]
  simp only [Nat.add_assoc]

theorem orNone_eq (n : Option Nat) : orNone n = n.getD 0xFF := by cases n <;> rfl

/-- R5, R186: a byte of the poll ring's map. -/
theorem ringByte_eq (l : LineId) (base : Nat) (s : State) :
    ringByte l base s = b8 (bitMap (fun i => (s.station (base + i)).any fun e => e.inRing l) 8) := by
  rw [ringByte, bitMap]
  congr 3
  funext i
  cases s.station (base + i) <;> rfl

/-! ### What READ_LINE_STATUS is answered with -/

variable {body : List Byte} {f : LineId → Applied}

theorem withLine_of_lineOf (h : lineOf (u8At body 1) = some l) : withLine body s f = f l := by rw [withLine, h]

theorem applyReadLineStatus_refused (h : 1 < u8At body 1 ∨ 1 < u8At body 2) :
    applyReadLineStatus body s = refuse .badParameter s := by
  rw [applyReadLineStatus]
  cases hl : lineOf (u8At body 1) with
  | none => rw [withLine, hl]
  | some l =>
    have low : ¬1 < u8At body 1 := fun high => by simp [lineOf_of_lt high] at hl
    rw [withLine_of_lineOf hl]
    split
    · omega
    · omega
    · rfl

theorem applyReadLineStatus_view0 (hl : lineOf (u8At body 1) = some l) (hv : u8At body 2 = 0) :
    applyReadLineStatus body s =
      ⟨if (s.line l).exchange.isNone then { s with freeCount := s.freeCount + 2 } else s,
        some ⟨.ok, lineView0 l s⟩⟩ := by
  rw [applyReadLineStatus, withLine_of_lineOf hl, hv]
  rfl

theorem applyReadLineStatus_view1 (hl : lineOf (u8At body 1) = some l) (hv : u8At body 2 = 1) :
    applyReadLineStatus body s = ⟨s, some ⟨.ok, lineView1 l s⟩⟩ := by
  rw [applyReadLineStatus, withLine_of_lineOf hl, hv]
  rfl

end

/-- Settles O29, view by view; a scan's responders by `responderBytes_eq`. -/
theorem readLineStatusReturnsTheLine : Obligations.ReadLineStatusReturnsTheLine := by
  intro s r rest line view h hb
  have hc : requestCode r.body = some 0x46 := by rw [hb]; rfl
  have hl : lengthFits r.body = true := by rw [hb]; rfl
  have hline : u8At r.body 1 = line.toNat := by rw [hb]; rfl
  have hview : u8At r.body 2 = view.toNat := by rw [hb]; rfl
  have answers {st : Status} {d : List Byte} {t : State}
      (ha : applyReadLineStatus r.body (headTaken rest s) = ⟨t, some ⟨st, d⟩⟩) :
      exec .readLineStatus s = .next (answered r st d t) :=
    congrArg Host.Outcome.next (takeRequest_of_apply h hc hl (by decide) ha)
  refine ⟨fun bad => answers (applyReadLineStatus_refused (by rwa [hline, hview])), fun l named => ?_⟩
  intro ln c k bit work view0 ring
  have names : lineOf (u8At r.body 1) = some l := by
    rw [hline]
    rcases named with ⟨rfl, rfl⟩ | ⟨rfl, rfl⟩ <;> rfl
  have code : b8 (lineCode l) = line := by rcases named with ⟨rfl, rfl⟩ | ⟨rfl, rfl⟩ <;> rfl
  have first (sound : ∀ sc, ln.scan = some sc → sc.responders.Nodup
      ∧ ∀ a ∈ sc.responders, sc.first ≤ a ∧ a < sc.first + 32) :
      lineView0 l (headTaken rest s) = view0 (exchangeBytes ln.exchange s.freeCount) := by
    have running : workBytes ln = work := by
      cases hs : ln.scan with
      | some sc =>
        obtain ⟨distinct, inside⟩ := sound sc hs
        simp only [workBytes, work, hs, List.append_assoc, responderBytes_eq distinct inside]
        rfl
      | none =>
        cases ht : ln.test with
        | some t => simp only [workBytes, work, hs, ht, orNone_eq]
        | none => simp only [workBytes, work, hs, ht]
    simp only [lineView0, view0, headTaken_line, code, configBytes, lineCounterBytes, orNone_eq, List.append_assoc,
      ← running]
    rfl
  have second : lineView1 l (headTaken rest s) = [line, 1] ++ ((List.range 6).map fun i => b8 (ring i))
      ++ [b8 ln.probeList.length] ++ ln.probeList.map b8 := by
    simp only [lineView1, headTaken_line, code, ringByte_eq]
    rfl
  refine ⟨fun x hv hx sound => answers ?_, fun hv hx sound => ?_, fun hv => answers ?_⟩
  · rw [applyReadLineStatus_view0 names (by rw [hview, hv]; rfl), first sound, headTaken_line, hx, exchangeBytes,
      orNone_eq]
    rfl
  · refine ⟨Config.freeByte s.freeCount, Config.freeByte (s.freeCount + 1), answers ?_⟩
    rw [applyReadLineStatus_view0 names (by rw [hview, hv]; rfl), first sound, headTaken_line, hx, exchangeBytes]
    rfl
  · rw [applyReadLineStatus_view1 names (by rw [hview, hv]; rfl), second]

end Sys2Proof.Machine
end

section
/-! PROOF. SET_OUTPUTS, CLEAR_OUTPUTS and ASSIGN_OUTPUT (R144): what they write, output by output. -/

namespace Sys2Proof.Machine

section
variable {s : State} {r : Request} {rest : List Request} {body : List Byte} {b : Byte}

/-- R144: the latches whose mask bit is 1 are written. -/
theorem writeLatches_outputs (mask : Nat) (value : Bool) (s : State) {i : Nat} (h : i < 4) :
    (writeLatches mask value s).outputs[i] =
      if mask.testBit i then { s.outputs[i] with latch := value } else s.outputs[i] := by
  simp [writeLatches]

/-- R144: one output takes a function. -/
theorem assignOutput_outputs (index : Nat) (f : OutputFunction) (s : State) {i : Nat} (h : i < 4) :
    (assignOutput index f s).outputs[i] =
      if i = index then { s.outputs[i] with function := f } else s.outputs[i] := by
  simp [assignOutput]

theorem applyMask_gives (value : Bool) (hm : u8At body 1 = b.toNat) :
    (applyMask value body (headTaken rest s)).Gives r
      (if 15 < b.toNat then refusedWith r rest .badParameter s
      else answered r .ok [] (writeLatches b.toNat value (headTaken rest s))) := by
  rw [applyMask, hm]
  exact .check .rfl (answer_gives rfl)

/-- R188: the five output functions, in the order of their codes. -/
theorem functionOf_eq (n : Nat) :
    functionOf n =
      ([.latch, .stuckA, .stuckB, .sessionStalled, .reportsUnsent] : List OutputFunction)[n]? := by
  match n with
  | 0 | 1 | 2 | 3 | 4 => rfl
  | n + 5 => rfl

theorem applyAssignOutput_refused (h : 3 < u8At body 1 ∨ 4 < u8At body 2) :
    applyAssignOutput body s = refuse .badParameter s := by
  rw [applyAssignOutput, functionOf_eq]
  rcases h with index | code
  · split
    · rfl
    · rw [if_pos index]
  · rw [List.getElem?_eq_none code]

theorem applyAssignOutput_of_lt {f : OutputFunction} (hi : u8At body 1 < 4) (hf : functionOf (u8At body 2) = some f) :
    applyAssignOutput body s = answer .ok (assignOutput (u8At body 1) f s) := by
  rw [applyAssignOutput, hf]
  exact if_neg (by omega)

/-- R149: an entry has not been sent. -/
theorem ReportQueue.unsentCount_pos (q : ReportQueue) : decide (0 < q.unsentCount) = q.entries.any (!·.sent) := by
  rw [Bool.eq_iff_iff, decide_eq_true_iff, unsentCount, List.length_pos_iff_exists_mem, List.any_eq_true]
  simp only [List.mem_filter]

/-- R143: what an output's pin shows under each function. -/
theorem pin_functions (s : State) (latch : Bool) :
    ([.latch, .stuckA, .stuckB, .sessionStalled, .reportsUnsent] : List OutputFunction).map (fun f => s.pin ⟨latch, f⟩)
      = [latch, s.lineA.stuck, s.lineB.stuck, s.link.session.state == .stalled, s.queue.entries.any (!·.sent)] := by
  rw [← ReportQueue.unsentCount_pos]
  rfl

end

/-- Settles O30; a pin's value under its new function by `pin_functions`. -/
theorem outputRequestsWriteLatchesAndFunctions : Obligations.OutputRequestsWriteLatchesAndFunctions := by
  intro s r rest b c h
  have masks (value : Bool) {code : Byte} (hb : r.body = [code, b]) (fits : lengthFits [code, b] = true)
      (h4 : code.toNat ≠ 4) :
      takeRequest code.toNat false (applyMask value) s =
        if 15 < b.toNat then refusedWith r rest .badParameter s
        else answered r .ok [] (writeLatches b.toNat value (headTaken rest s)) :=
    takeRequest_of_gives h (by rw [hb]; rfl) (hb ▸ fits) h4 (applyMask_gives value (by rw [hb]; rfl))
  have sets (hb : r.body = [0x50#8, b]) := masks true hb rfl (by decide)
  have clears (hb : r.body = [0x51#8, b]) := masks false hb rfl (by decide)
  have assigns (hb : r.body = [0x52#8, b, c]) {u : State}
      (ha : (applyAssignOutput r.body (headTaken rest s)).Gives r u) : exec .assignOutput s = .next u :=
    congrArg Host.Outcome.next
      (takeRequest_of_gives h (by rw [hb]; rfl) (by rw [hb]; rfl) (by decide) ha)
  refine ⟨fun high hb => ?_, fun high hb => ?_, fun low hb => ?_, fun low hb => ?_, fun bad hb => assigns hb ?_,
    fun hb4 hc5 hb => ?_⟩
  · exact congrArg Host.Outcome.next ((sets hb).trans (if_pos high))
  · exact congrArg Host.Outcome.next ((clears hb).trans (if_pos high))
  · exact ⟨_, congrArg Host.Outcome.next ((sets hb).trans (if_neg (Nat.not_lt.2 low))),
      fun i hi => writeLatches_outputs _ _ _ hi⟩
  · exact ⟨_, congrArg Host.Outcome.next ((clears hb).trans (if_neg (Nat.not_lt.2 low))),
      fun i hi => writeLatches_outputs _ _ _ hi⟩
  all_goals
    have hindex : u8At r.body 1 = b.toNat := by rw [hb]; rfl
    have hfun : u8At r.body 2 = c.toNat := by rw [hb]; rfl
  · rw [applyAssignOutput_refused (by rwa [hindex, hfun])]
    exact refuse_gives
  · intro functions values
    have named : functionOf (u8At r.body 2) = some functions[c.toNat] := by
      rw [hfun, functionOf_eq]
      exact List.getElem?_eq_getElem hc5
    have outputs {i : Nat} (hi : i < 4) := assignOutput_outputs b.toNat functions[c.toNat] (headTaken rest s) hi
    have chosen := (outputs hb4).trans (if_pos rfl)
    refine ⟨_, assigns hb ?_, ⟨_, rfl⟩, fun i hi hne => (outputs hi).trans (if_neg hne), chosen, ?_⟩
    · rw [applyAssignOutput_of_lt (hindex ▸ hb4) named, hindex]
      exact answer_gives rfl
    · have shows := List.getElem_of_eq (pin_functions s s.outputs[b.toNat].latch)
        (i := c.toNat) (by simpa using hc5)
      rw [List.getElem_map] at shows
      exact (congrArg (State.pin _) chosen).trans shows

end Sys2Proof.Machine
end

section
/-! PROOF. CONFIGURE_LINE (R129), its parameters read and checked, and CLEAR_LINE_COUNTERS (R142). -/

namespace Sys2Proof.Machine

/-- R185: the eight rates, in the order of their codes. -/
theorem rateOf_eq {n : Nat} (h : n ≠ 0) :
    rateOf n = ([.r1200, .r2400, .r4800, .r9600, .r19200, .r38400, .r57600, .r115200] : List LineRate)[n - 1]? := by
  match n with
  | 0 => exact absurd rfl h
  | 1 | 2 | 3 | 4 | 5 | 6 | 7 | 8 => rfl
  | n + 9 => rfl

/-- R185: no parameter is 0, which is DEFAULT. -/
theorem orDefault_pos {deflt : Nat} (h : 0 < deflt) (n : Nat) : 0 < orDefault 0 deflt n := by
  rw [orDefault]
  split <;> omega

theorem orDefault_le {deflt top n : Nat} (h : deflt ≤ top) (hn : n ≤ top) : orDefault 0 deflt n ≤ top := by
  rw [orDefault]
  split <;> assumption

/-- Settles O26, by the parameters that the body gives. -/
theorem linesAreConfiguredAndCleared : Obligations.LinesAreConfiguredAndCleared := by
  refine ⟨fun s r rest line rate stop start inter gap pLow pHigh hLow hHigh busy streak scan h hb => ?_,
    fun s r rest line h hb => ?_⟩
  all_goals
    have hl : lengthFits r.body = true := by rw [hb]; rfl
    have hline : u8At r.body 1 = line.toNat := by rw [hb]; rfl
  · have hc : requestCode r.body = some 0x41 := by rw [hb]; rfl
    intro or0 rates stopBits replyStart intercharacter lineGap probeInterval busyHoldoff busyLimit commandStreak
      scanStreak inRange
    -- The model states all the bounds; those that the byte or the DEFAULT value ensures need no check.
    have stated :
        ((stopBits = 1 ∨ stopBits = 2) ∧ (2 ≤ replyStart ∧ replyStart ≤ 255) ∧ (1 ≤ intercharacter ∧ intercharacter ≤ 15)
          ∧ (2 ≤ lineGap ∧ lineGap ≤ 63) ∧ (100 ≤ probeInterval ∧ probeInterval ≤ 60000)
          ∧ (5 ≤ busyHoldoff ∧ busyHoldoff ≤ 5000) ∧ (1 ≤ busyLimit ∧ busyLimit ≤ 15)
          ∧ (1 ≤ commandStreak ∧ commandStreak ≤ 8) ∧ (1 ≤ scanStreak ∧ scanStreak ≤ 8)) ↔ inRange := by
      have reply : replyStart ≤ 255 := orDefault_le (by decide) (Nat.le_of_lt_succ start.isLt)
      have limit : 1 ≤ busyLimit := orDefault_pos (by decide) busy.toNat
      have commands : 1 ≤ commandStreak := orDefault_pos (by decide) streak.toNat
      have scans : 1 ≤ scanStreak := orDefault_pos (by decide) scan.toNat
      simp only [inRange, reply, limit, commands, scans, and_true, true_and, and_assoc]
    have params : configParams r.body =
        match rates[or0 4 rate.toNat - 1]? with
        | none => none
        | some rate =>
          if inRange then
            some
              { rate, stopBits, replyStart, intercharacter, lineGap, probeInterval, busyHoldoff, busyLimit,
                commandStreak, scanStreak }
          else none := by
      have rated : rateOf (or0 4 rate.toNat) = rates[or0 4 rate.toNat - 1]? :=
        rateOf_eq (Nat.ne_of_gt (orDefault_pos (by decide) _))
      rw [← rated]
      have read : rateOf (orDefault 0 LineConfig.powerOn.rate.code (u8At r.body 2)) = rateOf (or0 4 rate.toNat) := by
        rw [hb]
        rfl
      rw [configParams, read, hb]
      cases rateOf (or0 4 rate.toNat) with
      | none => rfl
      | some rate => exact if_congr stated rfl rfl
    refine congrArg Host.Outcome.next (takeRequest_of_withLine h hc hl (by decide) hline rfl fun l => ?_)
    rw [params]
    cases rates[or0 4 rate.toNat - 1]? with
    | none => exact refuse_gives
    | some rate =>
      dsimp only
      by_cases hin : inRange
      · rw [if_pos hin, if_neg (not_not.2 hin)]
        exact .check .rfl (answer_gives rfl)
      · rw [if_neg hin, if_pos hin]
        exact refuse_gives
  · have hc : requestCode r.body = some 0x47 := by rw [hb]; rfl
    exact congrArg Host.Outcome.next
      (takeRequest_of_withLine h hc hl (by decide) hline rfl fun l => answer_gives (countLine_eq ..))

end Sys2Proof.Machine
end

end

/- These declarations too are elaborated one after another. -/
section
set_option Elab.async false

section
/-! SUPPORT. The numbers of the report queue's entries (R148), and the session that fits the entries sent (R149, R171 to
R176): both in a form that follows the entries, and what each change of queue and session does to them. -/

namespace Sys2Proof.Machine

/-! ### The numbers of the entries (R148) -/

section
variable {q p : ReportQueue}

/-- R148: the number of each entry, counted back from the counter. -/
theorem ReportQueue.numbered_iff :
    q.Numbered ↔ ∀ (i : Nat) (h : i < q.entries.length),
      q.entries[i].seq = q.seqCounter - BitVec.ofNat 16 (q.entries.length - i) := by
  constructor
  · intro h i hi
    have seqs := List.getElem_of_eq h (i := i) (by simpa using hi)
    simpa using seqs
  · intro h
    exact List.ext_getElem (by simp) fun i hi _ => by simpa using h i (by simpa using hi)

/-- Entries of the same numbers are numbered alike. -/
theorem ReportQueue.Numbered.of_seqs (h : q.Numbered) (hs : p.entries.map (·.seq) = q.entries.map (·.seq))
    (hc : p.seqCounter = q.seqCounter) : p.Numbered := by
  have length : p.entries.length = q.entries.length := by simpa using congrArg List.length hs
  rw [ReportQueue.Numbered, hs, hc, length]
  exact h

/-- R157: what is left when entries are removed from the head. -/
theorem ReportQueue.Numbered.of_suffix (h : q.Numbered) (hs : p.entries <:+ q.entries)
    (hc : p.seqCounter = q.seqCounter) : p.Numbered := by
  obtain ⟨removed, hs⟩ := hs
  rw [ReportQueue.numbered_iff, ← hs] at h
  rw [ReportQueue.numbered_iff, hc]
  intro i hi
  have numbered := h (removed.length + i) (by simp [hi])
  simpa [List.getElem_append_right, Nat.add_sub_add_left] using numbered

/-- R148: a report enters with the counter's value. -/
theorem ReportQueue.Numbered.enter (h : q.Numbered) (r : Report) :
    ReportQueue.Numbered
      { q with entries := q.entries ++ [⟨q.seqCounter, r, false⟩], seqCounter := q.seqCounter + 1 } := by
  rw [ReportQueue.numbered_iff] at h ⊢
  intro i hi
  simp only [List.length_append, List.length_singleton] at hi ⊢
  by_cases hl : i < q.entries.length
  · have later : q.entries.length + 1 - i = q.entries.length - i + 1 := by omega
    simp only [List.getElem_append_left hl, h i hl, later, BitVec.ofNat_add]
    bv_omega
  · obtain rfl : i = q.entries.length := by omega
    simp

/-- R146, R148: as long as the queue is no longer than it can be, the numbers are distinct. -/
theorem ReportQueue.Numbered.nodup (h : q.Numbered) (hl : q.entries.length ≤ 128) : (q.entries.map (·.seq)).Nodup := by
  rw [h]
  refine List.nodup_range.map_on fun i hi j hj hij => ?_
  rw [List.mem_range] at hi hj
  have same := congrArg BitVec.toNat (sub_right_injective hij)
  simp only [BitVec.toNat_ofNat] at same
  omega

theorem eq_of_seq_eq {es : List Entry} (hd : (es.map (·.seq)).Nodup) {x y : Entry} (hx : x ∈ es) (hy : y ∈ es)
    (h : x.seq = y.seq) : x = y := List.inj_on_of_nodup_map hd hx hy h

theorem dropThrough_suffix (n : Half) (es : List Entry) : dropThrough n es <:+ es := by
  induction es with
  | nil => exact List.suffix_rfl
  | cons e es ih =>
    unfold dropThrough
    split
    · exact List.suffix_cons e es
    · exact ih.trans (List.suffix_cons e es)

end

/-! ### The session and the entries sent (R149, R173 to R175) -/

/-- R149: how many of the entries are sent. -/
def sentOf (es : List Entry) : Nat := es.countP (·.sent)

/-- The session c fits the queue's entries: the clauses of `State.SessionSound`, the unbroken run of sent entries said of
any two entries. -/
structure Session.Fits (c : Session) (es : List Entry) : Prop where
  unbroken : es.Pairwise fun x y => y.sent = true → x.sent = true
  window : sentOf es ≤ c.window
  closed : c.state = .closed → sentOf es = 0
  stalled : c.state = .stalled → 0 < sentOf es
  timer : c.ackTimer.isSome → c.state = .opened ∧ 0 < sentOf es
  run : ∀ p, c.run = some p → c.state = .opened ∧ ∃ e ∈ es, e.sent = true ∧ e.seq = p

theorem all_unsent_iff {es : List Entry} : es.all (!·.sent) = true ↔ ∀ x ∈ es, x.sent = false := by simp

/-- R149: past the unbroken run of sent entries from the head none is sent. -/
theorem dropWhile_sent_iff (es : List Entry) :
    (es.dropWhile (·.sent)).all (!·.sent) = true ↔ es.Pairwise fun x y => y.sent = true → x.sent = true := by
  induction es with
  | nil => simp
  | cons e es ih =>
    rw [List.pairwise_cons, ← ih]
    cases he : e.sent with
    | true => simp [he]
    | false =>
      have none : (∀ y ∈ es, y.sent = true → false = true) ↔ ∀ y ∈ es, y.sent = false := by simp
      rw [List.dropWhile_cons_of_neg (by simp [he]), none, List.all_cons, he, Bool.not_false, Bool.true_and,
        all_unsent_iff, iff_self_and]
      exact fun h => all_unsent_iff.2 fun x hx => h x ((List.dropWhile_sublist _).subset hx)

theorem ReportQueue.sentCount_eq (q : ReportQueue) : q.sentCount = sentOf q.entries := List.countP_eq_length_filter.symm

theorem State.sessionSound_iff {s : State} : s.SessionSound ↔ s.link.session.Fits s.queue.entries := by
  unfold State.SessionSound
  rw [dropWhile_sent_iff, ReportQueue.sentCount_eq]
  constructor
  · rintro ⟨unbroken, window, closed, stalled, timer, run⟩
    exact ⟨unbroken, window, closed, stalled, timer, run⟩
  · rintro ⟨unbroken, window, closed, stalled, timer, run⟩
    exact ⟨unbroken, window, closed, stalled, timer, run⟩

section
variable {c : Session} {es : List Entry} {e : Entry} {n p : Half}

theorem sentOf_eq_zero : sentOf es = 0 ↔ ∀ x ∈ es, x.sent = false := by simp [sentOf]

theorem sentOf_pos : 0 < sentOf es ↔ ∃ x ∈ es, x.sent = true := List.countP_pos_iff

/-- R149: where an entry is sent, the head is. -/
theorem head_sent (hu : es.Pairwise fun x y => y.sent = true → x.sent = true) (hs : 0 < sentOf es) :
    ∃ e ∈ es, es.head? = some e ∧ e.sent = true := by
  obtain ⟨x, hx, sent⟩ := sentOf_pos.1 hs
  cases es with
  | nil => cases hx
  | cons e es =>
    refine ⟨e, List.mem_cons_self, rfl, ?_⟩
    rcases List.mem_cons.1 hx with rfl | hx
    · exact sent
    · exact (List.pairwise_cons.1 hu).1 x hx sent

/-- A report that enters is not sent. -/
theorem Session.Fits.enter (h : c.Fits es) (he : e.sent = false) : c.Fits (es ++ [e]) := by
  have same : sentOf (es ++ [e]) = sentOf es := by simp [sentOf, he]
  refine ⟨?_, same ▸ h.window, same ▸ h.closed, same ▸ h.stalled, same ▸ h.timer, fun p hp => ?_⟩
  · exact List.pairwise_append.2 ⟨h.unbroken, List.pairwise_singleton .., by simp [he]⟩
  · obtain ⟨ho, x, hx, sent⟩ := h.run p hp
    exact ⟨ho, x, List.mem_append_left _ hx, sent⟩

/-- R171, R172, R40, R180: with no entry sent, a session that is not STALLED fits when its timer and its run have
ended. -/
theorem Session.fits_of_unsent (hn : ∀ x ∈ es, x.sent = false) (hs : c.state ≠ .stalled) (ht : c.ackTimer = none)
    (hr : c.run = none) : c.Fits es where
  unbroken := List.pairwise_of_forall_mem_list fun _ _ y hy => by simp [hn y hy]
  window := sentOf_eq_zero.2 hn ▸ Nat.zero_le _
  closed := fun _ => sentOf_eq_zero.2 hn
  stalled := fun h => absurd h hs
  timer := by simp [ht]
  run := by simp [hr]

/-- R173, R175, R176: in OPEN, with entries sent, a run begins at the head. -/
theorem Session.Fits.beginRun (h : c.Fits es) (hs : 0 < sentOf es) (count : Nat) (timer : Option Nat) :
    Session.Fits
      { c with state := .opened, retransmissions := count, ackTimer := timer, run := es.head?.map (·.seq) } es := by
  obtain ⟨e, he, head, sent⟩ := head_sent h.unbroken hs
  refine ⟨h.unbroken, h.window, nofun, nofun, fun _ => ⟨rfl, hs⟩, fun p hp => ⟨rfl, e, he, sent, ?_⟩⟩
  simpa [head] using hp

/-- R175: at the sixth expiry in a row the session is STALLED, without a run. -/
theorem Session.Fits.stall (h : c.Fits es) (hs : 0 < sentOf es) (count : Nat) :
    Session.Fits { c with state := .stalled, retransmissions := count, ackTimer := none, run := none } es :=
  ⟨h.unbroken, h.window, nofun, fun _ => hs, nofun, nofun⟩

/-- R175: in OPEN the acknowledgement timer may run while there are entries sent. -/
theorem Session.Fits.startTimer (h : c.Fits es) (ho : c.state = .opened) (hs : 0 < sentOf es) (timer : Option Nat) :
    Session.Fits { c with ackTimer := timer } es :=
  { h with timer := fun _ => ⟨ho, hs⟩ }

/-- R174, R157: an acknowledgement of a sent entry, which leaves the entries after it: some of them sent. -/
theorem Session.Fits.acknowledge (h : c.Fits es) (hd : (es.map (·.seq)).Nodup) (ho : c.state = .opened)
    {rest : List Entry} (hr : rest <:+ es) (hs : 0 < sentOf rest) :
    Session.Fits
      { c with retransmissions := 0, run := c.run.bind (moveRun rest), ackTimer := some c.timeout } rest := by
  have unbroken := h.unbroken.sublist hr.sublist
  refine ⟨unbroken, (hr.sublist.countP_le ..).trans h.window, ?_, ?_, fun _ => ⟨ho, hs⟩, fun p hp => ⟨ho, ?_⟩⟩
  · simp [ho]
  · simp [ho]
  obtain ⟨position, hrun, moved⟩ := Option.bind_eq_some_iff.1 hp
  unfold moveRun at moved
  split at moved
  next stands =>
    obtain ⟨x, hx, hxp⟩ := List.any_eq_true.1 stands
    obtain ⟨-, y, hy, sent, hyp⟩ := h.run position hrun
    obtain rfl := eq_of_seq_eq hd (hr.subset hx) hy ((beq_iff_eq.1 hxp).trans hyp.symm)
    exact ⟨x, hx, sent, hyp.trans (Option.some.inj moved)⟩
  next =>
    obtain ⟨e, he, head, sent⟩ := head_sent unbroken hs
    rw [head] at moved
    exact ⟨e, he, sent, Option.some.inj moved⟩

/-- R174: none of them sent. -/
theorem Session.settle_fits (ho : c.state = .opened) {rest : List Entry} (hn : ¬0 < sentOf rest) :
    c.settle.Fits rest :=
  Session.fits_of_unsent (sentOf_eq_zero.1 (Nat.eq_zero_of_not_pos hn)) (by simp [Session.settle, ho]) rfl rfl

/-- R173: the entry at a run's position is sent again; no mark changes, and the run moves on. -/
theorem Session.Fits.resend (h : c.Fits es) (hd : (es.map (·.seq)).Nodup) (hr : c.run = some p)
    (he : es.find? (·.seq == p) = some e) :
    Session.Fits { c with run := c.run.bind fun _ => positionAfter e.seq es }
      (es.map fun x => if x.seq = e.seq then { x with sent := true } else x) := by
  obtain ⟨ho, y, hy, sent, hyp⟩ := h.run p hr
  have seq : e.seq = p := by simpa using List.find?_some he
  obtain rfl := eq_of_seq_eq hd hy (List.mem_of_find?_eq_some he) (hyp.trans seq.symm)
  obtain ⟨old, new, rfl⟩ := List.append_of_mem hy
  have marked : ({ y with sent := true } : Entry) = y := by rw [← sent]
  rw [map_sent_of_nodup hd, marked, positionAfter_of_nodup hd, hr]
  refine { h with run := fun p hp => ⟨ho, ?_⟩ }
  obtain ⟨f, hf, next⟩ := Option.bind_eq_some_iff.1 (Option.bind_some .. ▸ hp)
  split at next
  next sent =>
    exact ⟨f, by simp [List.mem_of_mem_head? hf], sent, Option.some.inj next⟩
  next => cases next

/-- R149, R173: below the window the oldest unsent entry is sent, which carries the unbroken run on. -/
theorem Session.Fits.send (h : c.Fits es) (hd : (es.map (·.seq)).Nodup) (ho : c.state = .opened) (hr : c.run = none)
    (hw : sentOf es < c.window) (he : es.find? (!·.sent) = some e) :
    Session.Fits { c with run := c.run.bind fun _ => positionAfter e.seq es }
      (es.map fun x => if x.seq = e.seq then { x with sent := true } else x) := by
  obtain ⟨unsent, old, new, rfl, sent⟩ := List.find?_eq_some_iff_append.1 he
  simp only [Bool.not_eq_true', Bool.not_not] at unsent sent
  have one : sentOf (old ++ { e with sent := true } :: new) = sentOf (old ++ e :: new) + 1 := by
    simp only [sentOf, List.countP_append, List.countP_cons, unsent]
    simp
    omega
  rw [map_sent_of_nodup hd, hr]
  obtain ⟨before, after, -⟩ := List.pairwise_append.1 h.unbroken
  have unbroken : (old ++ { e with sent := true } :: new).Pairwise fun x y => y.sent = true → x.sent = true :=
    List.pairwise_append.2 ⟨before, List.pairwise_cons.2 ⟨fun _ _ _ => rfl, (List.pairwise_cons.1 after).2⟩,
      fun x hx _ _ _ => sent x hx⟩
  refine ⟨unbroken, one ▸ hw, ?_, ?_, fun _ => ⟨ho, one ▸ Nat.succ_pos _⟩, nofun⟩
  · simp [ho]
  · simp [ho]

end

end Sys2Proof.Machine
end

section
/-! SUPPORT. What the work of the part does to the report queue (R148): reports enter it at the tail, and nothing else
becomes of its entries or of the session. -/

namespace Sys2Proof.Machine

/-! ### Reports that enter -/

/-- R148: from the queue q on, reports have entered at most; the reservations are whatever they are. -/
inductive ReportQueue.Grows (q : ReportQueue) : ReportQueue → Prop
  | refl : q.Grows q
  | reserved {p : ReportQueue} (h : q.Grows p) (n : Nat) : q.Grows { p with reservations := n }
  | entered {p : ReportQueue} (h : q.Grows p) (r : Report) :
      q.Grows { p with entries := p.entries ++ [⟨p.seqCounter, r, false⟩], seqCounter := p.seqCounter + 1 }

/-- From s to t reports have entered the queue at most, and the session stands as it did. -/
structure State.Reports (s t : State) : Prop where
  queue : s.queue.Grows t.queue
  session : t.link.session = s.link.session

theorem ReportQueue.Grows.numbered {q p : ReportQueue} (h : q.Grows p) (hq : q.Numbered) : p.Numbered := by
  induction h with
  | refl => exact hq
  | reserved _ _ ih => exact ih
  | entered _ r ih => exact ih.enter r

theorem ReportQueue.Grows.fits {q p : ReportQueue} (h : q.Grows p) {c : Session} (hc : c.Fits q.entries) :
    c.Fits p.entries := by
  induction h with
  | refl => exact hc
  | reserved _ _ ih => exact ih
  | entered _ _ ih => exact ih.enter rfl

section
variable {s t u : State} {l : LineId} {n : Nat} {x : Exchange}

theorem State.Reports.refl (s : State) : s.Reports s := ⟨.refl, rfl⟩

/-- What changes neither the queue nor the session. -/
theorem State.Reports.of_eq (h : s.Reports t) (hq : u.queue = t.queue := by simp)
    (hc : u.link.session = t.link.session := by simp) : s.Reports u := ⟨hq ▸ h.queue, hc.trans h.session⟩

theorem State.Reports.ite {p : Prop} [Decidable p] (ht : p → s.Reports t) (hu : ¬p → s.Reports u) :
    s.Reports (if p then t else u) := by
  split
  next hp => exact ht hp
  next hp => exact hu hp

theorem State.Reports.enqueue (h : s.Reports t) {r : Report} : s.Reports (enqueue r t) :=
  ⟨h.queue.entered r, h.session⟩
theorem State.Reports.grant (h : s.Reports t) : s.Reports (grant t) := ⟨h.queue.reserved _, h.session⟩
theorem State.Reports.release (h : s.Reports t) : s.Reports (release t) := ⟨h.queue.reserved _, h.session⟩
theorem State.Reports.convert (h : s.Reports t) {r : Report} : s.Reports (convert r t) := h.release.enqueue

theorem State.Reports.onLine (h : s.Reports t) {f : Line → Line} : s.Reports (t.onLine l f) := h.of_eq
theorem State.Reports.onStation (h : s.Reports t) {f : Station → Station} : s.Reports (t.onStation n f) := h.of_eq
theorem State.Reports.setStation (h : s.Reports t) {e : Option Station} : s.Reports (t.setStation n e) := h.of_eq

theorem State.Reports.countLine (h : s.Reports t) {f : LineCounters → LineCounters} :
    s.Reports (countLine l f t) := h.onLine
theorem State.Reports.raiseLineNotice (h : s.Reports t) {c : LineCause} : s.Reports (raiseLineNotice l c t) := h.onLine
theorem State.Reports.onExchange (h : s.Reports t) {f : Exchange → Exchange} : s.Reports (onExchange l f t) := h.onLine
theorem State.Reports.decideOutcome (h : s.Reports t) {o : ExchangeOutcome} : s.Reports (decideOutcome l o t) :=
  h.onExchange
theorem State.Reports.enterGap (h : s.Reports t) : s.Reports (enterGap l t) := h.onLine
theorem State.Reports.holdPartial (h : s.Reports t) {cs : List Byte} {fe : Bool} : s.Reports (holdPartial l cs fe t) :=
  h.onLine

/-! ### Records and stations -/

theorem State.Reports.completeRecord (h : s.Reports t) {r : CommandRecord} {o : CommandOutcome} {d : List Byte} :
    s.Reports (completeRecord r o d t) := by
  have done : s.Reports (Machine.convert (commandDone r o d)
      (t.onPool fun p => { p with records := p.records.eraseP (·.tag == r.tag) })) := State.Reports.convert h.of_eq
  exact done.of_eq

theorem State.Reports.completeRecords (h : s.Reports t) {rs : List CommandRecord} {o : CommandOutcome} :
    s.Reports (completeRecords rs o t) := by
  unfold Machine.completeRecords
  induction rs generalizing t with
  | nil => exact h
  | cons r rs ih => exact ih h.completeRecord

theorem State.Reports.completeAllOf (h : s.Reports t) {o : CommandOutcome} : s.Reports (completeAllOf n o t) :=
  h.completeRecords
theorem State.Reports.resyncRelease (h : s.Reports t) : s.Reports (resyncRelease n t) := h.completeRecords
theorem State.Reports.moveRecords (h : s.Reports t) : s.Reports (moveRecords n l t) := h.of_eq rfl rfl
theorem State.Reports.leaveProbeLists (h : s.Reports t) : s.Reports (leaveProbeLists n t) := h.of_eq rfl rfl
theorem State.Reports.joinProbeList (h : s.Reports t) : s.Reports (joinProbeList l n t) := h.onLine

theorem State.Reports.enterProbing (h : s.Reports t) : s.Reports (enterProbing n t) := by
  unfold Machine.enterProbing
  split
  · exact h
  · exact h.setStation.leaveProbeLists.joinProbeList

theorem State.Reports.disableTakesEffect (h : s.Reports t) : s.Reports (disableTakesEffect n t) :=
  h.onStation.leaveProbeLists.completeAllOf.onStation

theorem State.Reports.resolveDisable (h : s.Reports t) : s.Reports (resolveDisable n t) := by
  unfold Machine.resolveDisable
  split
  · exact h
  · exact .ite (fun _ => h.disableTakesEffect) fun _ => h

theorem State.Reports.stationAnswered (h : s.Reports t) : s.Reports (stationAnswered n t) := by
  unfold Machine.stationAnswered
  split
  · exact h
  · split
    · exact h
    · exact h
    · exact h.setStation
    · exact h.leaveProbeLists.onStation
    · exact h.leaveProbeLists.onStation

theorem State.Reports.enterOffline (h : s.Reports t) : s.Reports (enterOffline n t) := by
  unfold Machine.enterOffline
  split
  · exact h
  · exact .ite (fun _ => h.setStation) fun _ => h.setStation.leaveProbeLists.joinProbeList

theorem State.Reports.failOver (h : s.Reports t) : s.Reports (failOver n t) := by
  unfold Machine.failOver
  split
  · exact h
  · exact h.leaveProbeLists.onStation.resyncRelease.moveRecords.enterProbing.onStation

theorem State.Reports.compareThreshold (h : s.Reports t) : s.Reports (compareThreshold n t) := by
  unfold Machine.compareThreshold
  split
  · exact h
  · exact .ite (fun _ => .ite (fun _ => h.failOver) fun _ => h.enterOffline.completeAllOf.onStation) fun _ => h

theorem State.Reports.stationFailed (h : s.Reports t) : s.Reports (stationFailed n t) := by
  unfold Machine.stationFailed
  split
  · exact h
  · dsimp only
    split
    · exact h
    · exact h.setStation.compareThreshold
    · exact h.setStation.compareThreshold
    · exact h.setStation.compareThreshold
    · exact h.setStation

theorem State.Reports.resetStation (h : s.Reports t) : s.Reports (resetStation l t n) := by
  unfold Machine.resetStation
  split
  · exact h
  · exact .ite (fun _ => h.resyncRelease.enterProbing.onStation) fun _ => h

theorem State.Reports.foldl_resetStation (h : s.Reports t) (ns : List Nat) :
    s.Reports (ns.foldl (Machine.resetStation l) t) := by
  induction ns generalizing t with
  | nil => exact h
  | cons n ns ih => exact ih h.resetStation

/-! ### Scans and line tests -/

theorem State.Reports.endScan (h : s.Reports t) {status : ScanStatus} : s.Reports (endScan l status t) := by
  unfold Machine.endScan
  split
  · exact h
  · exact h.convert.onLine

theorem State.Reports.rollCallResult (h : s.Reports t) {present : Bool} : s.Reports (rollCallResult l present t) := by
  unfold Machine.rollCallResult
  split
  · exact h
  · exact .ite (fun _ => h) fun _ => .ite (fun _ => h.onLine.endScan) fun _ => h.onLine

theorem State.Reports.endTest (h : s.Reports t) {status : TestStatus} : s.Reports (endTest l status t) := by
  unfold Machine.endTest
  split
  · exact h
  · exact h.onLine.convert.onLine.raiseLineNotice

theorem State.Reports.judgeTest (h : s.Reports t) {matched : Bool} : s.Reports (judgeTest l matched t) := by
  unfold Machine.judgeTest
  split
  · exact h
  · exact .ite (fun _ => h.onLine.endTest) fun _ => h.onLine

theorem State.Reports.testHandedUp (h : s.Reports t) {up : HandedUp} : s.Reports (testHandedUp l up t) := by
  unfold Machine.testHandedUp
  split
  · exact h
  · split
    · exact h.onLine
    · exact h.judgeTest
    · exact h

theorem State.Reports.testAwaits (h : s.Reports t) : s.Reports (testAwaits l t) := by
  unfold Machine.testAwaits
  dsimp only
  split
  · exact h.onLine
  · exact h.onLine.judgeTest

theorem State.Reports.captureFrame (h : s.Reports t) {up : HandedUp} : s.Reports (captureFrame l up t) :=
  .ite (fun _ => h.enqueue) fun _ => h.countLine

/-! ### The exchange record -/

theorem State.Reports.onCarried (h : s.Reports t) {f : CommandRecord → CommandRecord} :
    s.Reports (onCarried x f t) := by
  unfold Machine.onCarried
  split
  · exact h
  · exact h.of_eq

theorem State.Reports.onNamed (h : s.Reports t) {f : Station → Station} : s.Reports (onNamed x f t) := by
  unfold Machine.onNamed
  split
  · exact h
  · exact h.onStation

theorem State.Reports.completeCarried (h : s.Reports t) {o : CommandOutcome} {d : List Byte} :
    s.Reports (completeCarried x o d t) := by
  unfold Machine.completeCarried
  split
  · exact h
  · split
    · exact h
    · exact h.completeRecord

theorem State.Reports.releaseHeld (h : s.Reports t) : s.Reports (releaseHeld x t) :=
  .ite (fun _ => h.release) fun _ => h

theorem State.Reports.giveBack (h : s.Reports t) : s.Reports (giveBack x t) := by
  unfold Machine.giveBack
  split
  · exact h
  · split
    · exact h
    · exact .ite (fun _ => h.completeRecord) fun _ => h.of_eq

theorem State.Reports.beginAttempt (h : s.Reports t) : s.Reports (beginAttempt l x t) := h.onCarried.onLine

theorem State.Reports.startExchange (h : s.Reports t) {kind : ExchangeKind} {station : Option Nat} {target : Nat}
    {record : Option Half} {holds toggle : Bool} {payload : List Byte} :
    s.Reports (startExchange l kind station target record holds toggle payload t) := h.onCarried.beginAttempt

theorem State.Reports.failAttempt (h : s.Reports t) {k : FailureKind} : s.Reports (failAttempt l k t) := by
  unfold Machine.failAttempt
  split
  · exact h
  next x _ =>
    have recorded : s.Reports (recordFailedAttempt l x k t) := h.onExchange.onCarried.onNamed.countLine
    refine State.Reports.enterGap (.ite (fun _ => recorded) fun _ => State.Reports.decideOutcome ?_)
    split
    · exact recorded.releaseHeld.onNamed
    · exact recorded.releaseHeld
    · exact recorded.completeCarried
    · exact recorded
    · exact recorded

theorem State.Reports.endRollCall (h : s.Reports t) {present : Bool} : s.Reports (endRollCall l present t) :=
  h.rollCallResult.decideOutcome.enterGap

theorem State.Reports.acceptData (h : s.Reports t) {d : List Byte} : s.Reports (acceptData x d t) := by
  unfold Machine.acceptData
  split
  · exact h
  · exact h.convert.onStation

theorem State.Reports.acceptProbe (h : s.Reports t) {k : ReplyKind} {d : List Byte} :
    s.Reports (acceptProbe l x k d t) := by
  unfold Machine.acceptProbe
  split
  · exact h.acceptData
  · exact h.releaseHeld.onNamed
  · exact h.releaseHeld.onNamed

theorem State.Reports.acceptPoll (h : s.Reports t) {k : ReplyKind} {d : List Byte} :
    s.Reports (acceptPoll l x k d t) := by
  refine State.Reports.onNamed ?_
  split
  · exact h.acceptData
  · exact h.releaseHeld.onNamed
  · exact h.releaseHeld.onNamed

theorem State.Reports.acceptCommandBusy (h : s.Reports t) : s.Reports (acceptCommandBusy l x t) := by
  unfold Machine.acceptCommandBusy
  split
  · exact h
  · split
    · exact h
    · exact .ite (fun _ => h.setStation.completeCarried.onNamed) fun _ => h.setStation.giveBack

theorem State.Reports.acceptReply (h : s.Reports t) {k : ReplyKind} {d : List Byte} :
    s.Reports (acceptReply l x k d t) := by
  refine State.Reports.decideOutcome ?_
  split
  · exact h.acceptPoll
  · exact h.acceptProbe
  · exact h.acceptCommandBusy
  · exact h.completeCarried.onNamed
  · exact h.completeCarried.onNamed
  · exact h
  · exact h

theorem State.Reports.judgeReply (h : s.Reports t) {up : HandedUp} : s.Reports (judgeReply l up t) := by
  unfold Machine.judgeReply
  split
  · exact h
  · refine .ite (fun _ => h) fun _ => ?_
    split
    · exact h.endRollCall
    · exact h.failAttempt
    · exact h.failAttempt
    · exact h.acceptReply.enterGap

theorem State.Reports.exchangeFrameLeft (h : s.Reports t) : s.Reports (exchangeFrameLeft l x t) :=
  have left := (h.countLine (l := l)).onCarried.onExchange
  .ite (fun _ => left.completeCarried.decideOutcome) fun _ => left

/-! ### The receiver and the loop -/

theorem State.Reports.handUp (h : s.Reports t) {up : HandedUp} : s.Reports (handUp l up t) := by
  unfold Machine.handUp
  split
  · exact h
  · exact h.judgeReply
  · exact h.captureFrame
  · exact h.testHandedUp

theorem State.Reports.abandonFrame (h : s.Reports t) {cs : List Byte} {fe : Bool} {c : AbandonCause} :
    s.Reports (abandonFrame l cs fe c t) := h.onLine.handUp

theorem State.Reports.takeCharacter (h : s.Reports t) {k : CharacterClass} {b : Byte} {fe : Bool} :
    s.Reports (takeCharacter l k b fe t) := by
  have received : s.Reports (receiveCharacter l fe t) := h.onLine
  have stray : s.Reports (receiveStray l fe t) := h.onLine
  cases k with
  | stray => exact stray
  | begins =>
    unfold Machine.takeCharacter beginFrame
    dsimp only
    split
    · exact received.holdPartial.onExchange
    · exact received.countLine.holdPartial.handUp
  | added => exact received.holdPartial
  | tooLong => exact received.abandonFrame
  | completes => exact received.onLine.handUp

theorem State.Reports.characterEvent (h : s.Reports t) {k : CharacterClass} {b : Byte} {mark fe : Bool} :
    s.Reports (characterEvent l k b mark fe t) := .ite (fun _ => h.takeCharacter) fun _ => h

theorem State.Reports.deliverLoop (h : s.Reports t) : s.Reports (deliverLoop l t) := by
  unfold Machine.deliverLoop
  split
  · exact h
  · split
    · exact h
    · exact h.takeCharacter

theorem State.Reports.testCharacterLeft (h : s.Reports t) : s.Reports (testCharacterLeft l t) := h.deliverLoop.onLine

theorem State.Reports.testFrameLeft (h : s.Reports t) : s.Reports (testFrameLeft l t) := h.deliverLoop.onLine.countLine

theorem State.Reports.completeShift (h : s.Reports t) : s.Reports (completeShift l t) := by
  unfold Machine.completeShift
  split
  · exact .ite (fun _ => h.onLine) fun _ => h.exchangeFrameLeft
  · exact .ite (fun _ => h.testCharacterLeft) fun _ => h.testFrameLeft
  · exact h

/-! ### Exchanges that end, modes, line resets and STUCK -/

theorem State.Reports.endExchange (h : s.Reports t) : s.Reports (endExchange l t) := by
  unfold Machine.endExchange
  split
  · exact h
  next x _ =>
    have emptied : s.Reports (t.onLine l fun ln => { ln with exchange := none }) := h.onLine
    dsimp only
    split
    · exact emptied
    · refine State.Reports.resolveDisable ?_
      cases x.result with
      | answered => exact emptied.stationAnswered
      | failed => exact emptied.stationFailed
      | nothing => exact emptied

theorem State.Reports.disposeWork (h : s.Reports t) : s.Reports (disposeWork l x t) := by
  cases hk : x.kind with
  | poll =>
    rw [disposeWork_of_poll hk]
    exact h.releaseHeld.onNamed
  | probe =>
    rw [disposeWork_of_probe hk]
    exact h.releaseHeld.onNamed
  | rollCall =>
    rw [disposeWork_of_rollCall hk]
    exact h.rollCallResult
  | command =>
    rw [disposeWork_of_record (.inl hk)]
    exact h.giveBack
  | broadcast =>
    rw [disposeWork_of_record (.inr hk)]
    exact h.giveBack

theorem State.Reports.cutOff (h : s.Reports t) : s.Reports (cutOff l t) := by
  have released : s.Reports ((endAssembly l t).onLine l fun ln => { ln with driver := ln.driverOff }) :=
    State.Reports.onLine h.onLine
  unfold Machine.cutOff
  dsimp only
  split
  · exact released
  · exact State.Reports.endExchange (.ite (fun _ => released) fun _ => released.disposeWork)

theorem State.Reports.changeMode (h : s.Reports t) {m : LineMode} : s.Reports (changeMode l m t) := by
  have ended : s.Reports (endLineWork l t) := by
    unfold endLineWork
    split
    · exact h.endTest
    · exact h.cutOff.endScan.onLine
    · exact h
  exact .ite (fun _ => ended) fun _ => (State.Reports.onLine ended.onLine).raiseLineNotice

theorem State.Reports.resetLineNow (h : s.Reports t) : s.Reports (resetLineNow l t) := by
  have ended : s.Reports (endWorkForReset l t) := by
    unfold endWorkForReset
    split
    · exact h.endTest
    · exact h.cutOff.endScan
    · exact h
  exact (ended.onLine.foldl_resetStation _).raiseLineNotice

theorem State.Reports.takeStuck (h : s.Reports t) : s.Reports (takeStuck l t) := by
  have raised : s.Reports (raiseStuck l t) := h.onLine.raiseLineNotice
  refine .ite (fun _ => ?_) fun _ => raised.cutOff.endScan
  unfold stuckInMonitor
  split
  · exact raised
  · exact raised.abandonFrame

theorem State.Reports.expireGap (h : s.Reports t) : s.Reports (expireGap l x t) :=
  .ite (fun _ => h.endExchange) fun _ => .ite (fun _ => h.completeCarried.endExchange) fun _ => h.beginAttempt

/-! ### The scheduler, and notices -/

theorem State.Reports.chooseWork (h : s.Reports t) : s.Reports (chooseWork l t) := by
  unfold Machine.chooseWork
  refine .ite (fun _ => ?_) fun _ => .ite (fun _ => ?_) fun _ => .ite (fun _ => ?_) fun _ => h
  · split
    · exact h
    · unfold takeRecord
      dsimp only
      split
      · exact h.onLine.startExchange
      · split
        · exact h.onLine
        · exact h.onLine.startExchange
  · split
    · exact h
    · unfold takePoll
      split
      · exact h
      · exact h.grant.setStation.onLine.startExchange
  · split
    · exact h
    · unfold takeProbe
      split
      · exact h
      · exact h.grant.setStation.onLine.startExchange

theorem State.Reports.choose (h : s.Reports t) : s.Reports (choose l t) := by
  unfold Machine.choose
  split
  · exact h.chooseWork
  · split
    · exact h.endScan.chooseWork
    · exact .ite (fun _ => h.onLine.startExchange) fun _ => h.onLine.chooseWork

theorem State.Reports.drainOne (h : s.Reports t) : s.Reports (drainOne t) := by
  refine .ite (fun _ => h.enqueue.onLine) fun _ => .ite (fun _ => h.enqueue.onLine) fun _ => ?_
  split
  · exact h
  · unfold drainStation
    split
    · exact h
    · exact h.enqueue.setStation

end

end Sys2Proof.Machine
end

section
/-! PROOF. Every row of the table, and so every step, keeps the queue numbered (R148), and a session that fits the
entries sent (R149, R171 to R176). -/

namespace Sys2Proof.Machine

/-- A change keeps the queue numbered, and, its numbers distinct before, the session sound. -/
structure State.Orderly (s t : State) : Prop where
  numbered : s.queue.Numbered → t.queue.Numbered
  session : (s.queue.entries.map (·.seq)).Nodup → s.link.session.Fits s.queue.entries →
    t.link.session.Fits t.queue.entries

section
variable {s t u : State} {l : LineId}

theorem State.Reports.orderly (h : s.Reports t) : s.Orderly t :=
  ⟨h.queue.numbered, fun _ hf => h.session ▸ h.queue.fits hf⟩

theorem State.Orderly.refl (s : State) : s.Orderly s := (State.Reports.refl s).orderly

/-- Reports that enter after it. -/
theorem State.Orderly.then (h : s.Orderly t) (k : t.Reports u) : s.Orderly u :=
  ⟨fun hs => k.orderly.numbered (h.numbered hs), fun hd hs => k.session ▸ k.queue.fits (h.session hd hs)⟩

/-- What changes neither the queue nor the session, before it. -/
theorem State.Orderly.of_eq (h : t.Orderly u) (hq : t.queue = s.queue := by rfl)
    (hc : t.link.session = s.link.session := by rfl) : s.Orderly u :=
  ⟨hq ▸ h.numbered, by rw [← hq, ← hc]; exact h.session⟩

/-- What changes neither the queue nor the session. -/
theorem State.Orderly.aside (hq : t.queue = s.queue := by rfl) (hc : t.link.session = s.link.session := by rfl) :
    s.Orderly t := (State.Orderly.refl t).of_eq hq hc

theorem State.Orderly.ite {p : Prop} [Decidable p] (ht : p → s.Orderly t) (hu : ¬p → s.Orderly u) :
    s.Orderly (if p then t else u) := by
  split
  next hp => exact ht hp
  next hp => exact hu hp

/-- A change of the session alone. -/
theorem State.Orderly.of_session (hf : s.link.session.Fits s.queue.entries → t.link.session.Fits s.queue.entries)
    (hq : t.queue = s.queue := by rfl) : s.Orderly t :=
  ⟨by rw [hq]; exact id, fun _ hs => by rw [hq]; exact hf hs⟩

/-! ### The host link -/

theorem State.Reports.countLink (h : s.Reports t) {f : LinkCounters → LinkCounters} : s.Reports (countLink f t) :=
  h.of_eq rfl rfl

theorem State.Reports.queueIfRoom (h : s.Reports t) {r : Response} : s.Reports (queueIfRoom r t) :=
  .ite (fun _ => h.of_eq) fun _ => h.countLink

theorem State.Reports.answerHeld (h : s.Reports t) : s.Reports (answerHeld t) := by
  unfold Machine.answerHeld
  split
  · exact h
  · exact h.of_eq rfl rfl

theorem State.Reports.arrive (h : s.Reports t) {r : Request} : s.Reports (arrive r t) := by
  unfold Machine.arrive
  split
  · exact h.queueIfRoom.countLink
  · refine .ite (fun _ => h.countLink) fun _ => .ite (fun _ => ?_) fun _ => h.of_eq
    exact .ite (fun _ => h.queueIfRoom.countLink) fun _ => h.queueIfRoom

/-- R176: a stalled session is reopened, its entries sent again from the head. -/
theorem returnFromStall_orderly (s : State) : s.Orderly (returnFromStall s) := by
  refine .ite (fun hs => .of_session fun hf => ?_) fun _ => .refl s
  exact hf.beginRun (hf.stalled hs) 0 s.link.session.ackTimer

theorem returnFromStall_queue (s : State) : (returnFromStall s).queue = s.queue := by
  unfold returnFromStall
  split <;> rfl

theorem returnFromStall_open (s : State) : (returnFromStall s).link.session.state ≠ .stalled := by
  unfold returnFromStall
  split
  · exact nofun
  next h => exact h

/-- R174: outside STALLED, for an acknowledgement of a sent entry in CLOSED there is none. -/
theorem takeAck_orderly (n : Half) (hs : s.link.session.state ≠ .stalled) : s.Orderly (takeAck n s) := by
  refine .ite (fun sent => ?_) fun _ => .aside
  have rest := dropThrough_suffix n s.queue.entries
  have opened (hf : s.link.session.Fits s.queue.entries) : s.link.session.state = .opened := by
    obtain ⟨e, he, sent⟩ := List.any_eq_true.1 sent
    have some := sentOf_pos.2 ⟨e, he, (Bool.and_eq_true_iff.1 sent).1⟩
    cases h : s.link.session.state with
    | closed => exact absurd (hf.closed h) (Nat.ne_of_gt some)
    | opened => rfl
    | stalled => exact absurd h hs
  unfold acknowledge
  dsimp only
  rw [ReportQueue.sentCount_eq]
  refine .ite (fun more => ?_) fun none => ?_
  · exact ⟨fun hn => hn.of_suffix rest rfl, fun hd hf => hf.acknowledge hd (opened hf) rest more⟩
  · exact ⟨fun hn => hn.of_suffix rest rfl, fun _ hf => Session.settle_fits (opened hf) none⟩

/-- R174, R176: an acknowledgement in any state. -/
theorem ack_orderly (n : Half) (s : State) : s.Orderly (takeAck n (returnFromStall s)) := by
  have acknowledged := takeAck_orderly n (returnFromStall_open s)
  have reopened := returnFromStall_orderly s
  refine ⟨acknowledged.numbered ∘ reopened.numbered, fun hd hf => acknowledged.session ?_ (reopened.session hd hf)⟩
  rwa [returnFromStall_queue]

/-- R173: what a next report is: the entry at the position of a run, or below the window the oldest unsent one. -/
theorem nextReport_eq_some {e : Entry} (h : nextReport s = some e) :
    s.link.session.state = .opened
      ∧ ((∃ p, s.link.session.run = some p ∧ s.queue.entries.find? (·.seq == p) = some e)
        ∨ (s.link.session.run = none ∧ sentOf s.queue.entries < s.link.session.window
          ∧ s.queue.entries.find? (!·.sent) = some e)) := by
  unfold nextReport at h
  dsimp only at h
  split at h
  next opened =>
    refine ⟨opened, ?_⟩
    split at h
    next p hr => exact .inl ⟨p, hr, h⟩
    next hr =>
      split at h
      next below => exact .inr ⟨hr, s.queue.sentCount_eq ▸ below, h⟩
      next => cases h
  next => cases h

theorem startReport_orderly {e : Entry} (h : nextReport s = some e) : s.Orderly (startReport e s) := by
  refine ⟨fun hn => hn.of_seqs ?_ rfl, fun hd hf => ?_⟩
  · simp only [startReport_eq, List.map_map]
    exact List.map_congr_left fun x _ => by dsimp only [Function.comp]; split <;> rfl
  · obtain ⟨opened, ⟨p, hr, he⟩ | ⟨hr, below, he⟩⟩ := nextReport_eq_some h
    · exact hf.resend hd hr he
    · exact hf.send hd opened hr below he

theorem startHostFrame_orderly (s : State) : s.Orderly (startHostFrame s) := by
  refine .ite (fun _ => ?_) fun _ => .refl s
  split
  · exact .aside
  · split
    next he => exact startReport_orderly he
    next => exact .ite (fun _ => .aside) fun _ => .refl s

theorem restartAckTimer_orderly (s : State) : s.Orderly (restartAckTimer s) := by
  refine .ite (fun h => .of_session fun hf => ?_) fun _ => .refl s
  exact hf.startTimer h.1 (s.queue.sentCount_eq ▸ h.2) _

theorem restartAckTimer_queue (s : State) : (restartAckTimer s).queue = s.queue := by
  unfold restartAckTimer
  split <;> rfl

/-- R175: the timer runs only while there are entries sent. -/
theorem expireAckTimer_orderly (ht : s.link.session.ackTimer.isSome) (ho : s.link.session.state = .opened) :
    s.Orderly (expireAckTimer s) := by
  refine .ite (fun _ => .of_session fun hf => ?_) fun _ => .of_session fun hf => hf.stall (hf.timer ht).2 6
  have begun := hf.beginRun (hf.timer ht).2 (s.link.session.retransmissions + 1) none
  rw [← ho] at begun
  exact begun

/-! ### Restart and power-on -/

/-- R40, R171, R180: an empty queue, and a session that is not STALLED and has neither timer nor run. -/
theorem State.Orderly.of_empty (hq : t.queue.entries = [] := by rfl)
    (hs : t.link.session.state ≠ .stalled := by exact nofun) (ht : t.link.session.ackTimer = none := by rfl)
    (hr : t.link.session.run = none := by rfl) : s.Orderly t :=
  ⟨fun _ => by simp [ReportQueue.Numbered, hq], fun _ _ => Session.fits_of_unsent (by simp [hq]) hs ht hr⟩

theorem hostFrameEnd_orderly (h : execHostFrameEnd s = .next t) : s.Orderly t := by
  obtain rfl := Host.Outcome.next.inj h
  split
  · exact .refl s
  · split
    · exact .of_empty
    · have timed := (restartAckTimer_orderly (endHostFrame s)).of_eq (s := s)
      have started := startHostFrame_orderly (restartAckTimer (endHostFrame s))
      refine ⟨started.numbered ∘ timed.numbered, fun hd hf => started.session ?_ (timed.session hd hf)⟩
      rwa [restartAckTimer_queue]
    · exact (startHostFrame_orderly _).of_eq
    · exact (startHostFrame_orderly _).of_eq

/-! ### Requests -/

/-- R168: a request changes queue and session as its owner does. -/
theorem takeRequest_orderly {code : Nat} {inClosed : Bool} {apply : List Byte → State → Applied}
    (ha : ∀ body u, State.Orderly u (apply body u).state) (s : State) :
    s.Orderly (takeRequest code inClosed apply s) := by
  have aside {u : State} (f : Link → Link) (hc : (f u.link).session = u.link.session) : u.Reports (u.onLink f) :=
    (State.Reports.refl u).of_eq rfl hc
  unfold takeRequest
  split
  · exact .refl s
  next r rest _ =>
    refine .ite (fun _ => ?_) fun _ => .refl s
    have applied := (ha r.body (s.onLink fun k => { k with intake := rest })).of_eq (s := s)
    refine .ite (fun _ => .aside) fun _ => .ite (fun _ => .aside) fun _ => ?_
    dsimp only
    split
    · exact applied.then (aside _ rfl)
    · exact applied.then (aside _ rfl)

/-- A request whose owner lets reports enter at most. -/
theorem takeRequest_reports {code : Nat} {inClosed : Bool} {apply : List Byte → State → Applied}
    (ha : ∀ body u, State.Reports u (apply body u).state) (s : State) :
    s.Orderly (takeRequest code inClosed apply s) := takeRequest_orderly (fun body u => (ha body u).orderly) s

/-- R171, R172, R159: the marks of the entries that stay are cleared, and the session has neither timer nor run. -/
theorem State.Orderly.of_cleared {es : List Entry}
    (hq : t.queue = { s.queue with entries := es.map fun e => { e with sent := false } })
    (he : es = s.queue.entries ∨ es = []) (hs : t.link.session.state ≠ .stalled := by exact nofun)
    (ht : t.link.session.ackTimer = none := by rfl) (hr : t.link.session.run = none := by rfl) : s.Orderly t := by
  refine ⟨fun hn => ?_, fun _ _ => Session.fits_of_unsent (by simp [hq]) hs ht hr⟩
  rcases he with rfl | rfl
  · exact hn.of_seqs (by simp [hq]) (by rw [hq])
  · simp [ReportQueue.Numbered, hq]

theorem applyOpenSession_orderly (body : List Byte) (s : State) : s.Orderly (applyOpenSession body s).state := by
  unfold applyOpenSession
  dsimp only
  split
  · cases flagAt body 4 with
    | false => exact .of_cleared rfl (.inl rfl)
    | true => exact .of_cleared rfl (.inr rfl)
  · exact .refl s

theorem applyCloseSession_orderly (body : List Byte) (s : State) : s.Orderly (applyCloseSession body s).state :=
  .of_cleared rfl (.inl rfl)

theorem withLine_reports {body : List Byte} {f : LineId → Applied} (hf : ∀ l, s.Reports (f l).state) :
    s.Reports (withLine body s f).state := by
  unfold withLine
  split
  · exact .refl s
  · exact hf _

theorem withStation_reports {body : List Byte} {f : Nat → Station → Applied} (hf : ∀ n e, s.Reports (f n e).state) :
    s.Reports (withStation body s f).state := by
  unfold withStation
  dsimp only
  split
  · exact .refl s
  · split
    · exact .refl s
    · exact hf _ _

/-- One check of an owner's. -/
theorem Applied.reports_ite {p : Prop} [Decidable p] {a b : Applied} (ha : s.Reports a.state) (hb : s.Reports b.state) :
    s.Reports (if p then a else b).state := by
  split
  · exact ha
  · exact hb

theorem submitForStation_reports (n : Nat) (e : Station) (body : List Byte) (s : State) :
    s.Reports (submitForStation n e body s).state := by
  have accepted : s.Reports (acceptRecord (tagOf body) (some n) e.current (body.drop 5) s) :=
    (State.Reports.refl s).grant.of_eq rfl rfl
  exact Applied.reports_ite (.refl s) (Applied.reports_ite (.refl s)
    (Applied.reports_ite (.refl s) (Applied.reports_ite (.refl s) accepted)))

theorem applySubmitCommand_reports (body : List Byte) (s : State) : s.Reports (applySubmitCommand body s).state := by
  refine Applied.reports_ite (.refl s) ?_
  split
  · exact .refl s
  next e _ =>
    cases e.state with
    | disabled | offline => exact .refl s
    | probing | online | suspect => exact submitForStation_reports ..

theorem applySubmitBroadcast_reports (body : List Byte) (s : State) :
    s.Reports (applySubmitBroadcast body s).state := by
  unfold applySubmitBroadcast
  split
  · exact .refl s
  next l _ =>
    have accepted : s.Reports (acceptRecord (tagOf body) none l (body.drop 5) s) :=
      (State.Reports.refl s).grant.of_eq rfl rfl
    exact Applied.reports_ite (.refl s) (Applied.reports_ite (.refl s)
      (Applied.reports_ite (.refl s) (Applied.reports_ite (.refl s) accepted)))

theorem applyCancelCommand_reports (body : List Byte) (s : State) : s.Reports (applyCancelCommand body s).state := by
  unfold applyCancelCommand
  split
  · exact .refl s
  next r _ =>
    cases r.state with
    | queued => exact (State.Reports.refl s).completeRecord
    | inFlight => exact (State.Reports.refl s).of_eq rfl rfl

theorem applyDefineStation_reports (body : List Byte) (s : State) : s.Reports (applyDefineStation body s).state := by
  unfold applyDefineStation
  split
  · exact .refl s
  next p _ =>
    have defined : s.Reports (s.setStation p.station (some (newStation p))) := (State.Reports.refl s).setStation
    refine Applied.reports_ite (.refl s) (Applied.reports_ite (.refl s) (State.Reports.onStation ?_))
    exact .ite (fun _ => defined.enterProbing) fun _ => defined.onStation.leaveProbeLists

theorem applyModifyStation_reports (body : List Byte) (s : State) : s.Reports (applyModifyStation body s).state :=
  Applied.reports_ite (.refl s) (withStation_reports fun _ _ => (State.Reports.refl s).setStation)

theorem applyRemoveStation_reports (body : List Byte) (s : State) : s.Reports (applyRemoveStation body s).state :=
  withStation_reports fun _ _ => Applied.reports_ite (.refl s)
    (State.Reports.refl s).completeAllOf.leaveProbeLists.setStation

theorem applyEnableStation_reports (body : List Byte) (s : State) : s.Reports (applyEnableStation body s).state :=
  withStation_reports fun _ _ => Applied.reports_ite (State.Reports.refl s).onStation.enterProbing.onStation
    (State.Reports.refl s).setStation

theorem applyDisableStation_reports (body : List Byte) (s : State) : s.Reports (applyDisableStation body s).state :=
  withStation_reports fun _ _ => Applied.reports_ite (.refl s)
    (Applied.reports_ite (State.Reports.refl s).setStation (State.Reports.refl s).disableTakesEffect)

theorem applyReadStation_reports (body : List Byte) (s : State) : s.Reports (applyReadStation body s).state := by
  refine Applied.reports_ite (.refl s) ?_
  split <;> exact .refl s

theorem applyRequestPoll_reports (body : List Byte) (s : State) : s.Reports (applyRequestPoll body s).state := by
  refine withStation_reports fun _ e => ?_
  cases e.state with
  | online | suspect => exact (State.Reports.refl s).setStation
  | disabled | probing | offline => exact .refl s

theorem afterShift_reports {ending : LineEnding} {now : State → State} (hn : s.Reports (now s)) :
    s.Reports (afterShift l ending now s).state := by
  have waits : s.Reports (s.onLine l fun ln => { ln with ending := some ending }) := (State.Reports.refl s).onLine
  exact Applied.reports_ite waits hn

theorem applySetLineMode_reports (body : List Byte) (s : State) : s.Reports (applySetLineMode body s).state := by
  refine withLine_reports fun l => ?_
  split
  · exact .refl s
  · exact Applied.reports_ite (.refl s) (afterShift_reports (State.Reports.refl s).changeMode)

theorem applyConfigureLine_reports (body : List Byte) (s : State) : s.Reports (applyConfigureLine body s).state := by
  have configured (l : LineId) (config : LineConfig) : s.Reports (s.onLine l fun ln => { ln with config }) :=
    (State.Reports.refl s).onLine
  refine withLine_reports fun l => ?_
  split
  · exact .refl s
  · exact Applied.reports_ite (.refl s) (configured l _)

theorem applyResetLine_reports (body : List Byte) (s : State) : s.Reports (applyResetLine body s).state :=
  withLine_reports fun _ => afterShift_reports (State.Reports.refl s).resetLineNow

theorem applyStartScan_reports (body : List Byte) (s : State) : s.Reports (applyStartScan body s).state := by
  have started (l : LineId) (first last : Nat) : s.Reports (startScan l first last s) :=
    (State.Reports.refl s).grant.onLine
  exact withLine_reports fun l => Applied.reports_ite (.refl s) (Applied.reports_ite (.refl s)
    (Applied.reports_ite (.refl s) (Applied.reports_ite (.refl s) (started l _ _))))

theorem applyCancelScan_reports (body : List Byte) (s : State) : s.Reports (applyCancelScan body s).state :=
  withLine_reports fun _ => Applied.reports_ite (.refl s) (State.Reports.refl s).endScan

theorem applyStartLineTest_reports (body : List Byte) (s : State) : s.Reports (applyStartLineTest body s).state :=
  withLine_reports fun _ => Applied.reports_ite (.refl s) (Applied.reports_ite (.refl s)
    (Applied.reports_ite (.refl s) (Applied.reports_ite (.refl s)
      (State.Reports.refl s).grant.onLine.raiseLineNotice)))

theorem applyReadLineStatus_reports (body : List Byte) (s : State) : s.Reports (applyReadLineStatus body s).state := by
  refine withLine_reports fun l => ?_
  split
  · exact .ite (fun _ => (State.Reports.refl s).of_eq rfl rfl) fun _ => .refl s
  · exact .refl s
  · exact .refl s

theorem applyReadLinkStatus_reports (body : List Byte) (s : State) : s.Reports (applyReadLinkStatus body s).state :=
  .ite (fun _ => (State.Reports.refl s).of_eq rfl rfl) fun _ => .refl s

theorem applyMask_reports (value : Bool) (body : List Byte) (s : State) : s.Reports (applyMask value body s).state :=
  Applied.reports_ite (.refl s) ((State.Reports.refl s).of_eq rfl rfl)

theorem applyAssignOutput_reports (body : List Byte) (s : State) : s.Reports (applyAssignOutput body s).state := by
  unfold applyAssignOutput
  split
  · exact .refl s
  · exact Applied.reports_ite (.refl s) ((State.Reports.refl s).of_eq rfl rfl)

/-! ### The rows -/

theorem driverRelease_reports (h : execDriverRelease l s = .next t) : s.Reports t := by
  obtain rfl := Host.Outcome.next.inj h
  have released : s.Reports (releaseDriver l (completeShift l s)) := (State.Reports.refl s).completeShift.onLine
  split
  · exact .refl s
  · exact (State.Reports.refl s).onLine
  · exact released.changeMode.answerHeld
  · exact released.resetLineNow.answerHeld

theorem characterSent_reports (h : execCharacterSent l s = .next t) : s.Reports t := by
  obtain rfl := Host.Outcome.next.inj h
  refine .ite (fun _ => .refl s) fun _ => ?_
  split
  · exact .ite (fun _ => (State.Reports.refl s).onExchange) fun _ => .refl s
  · exact .ite (fun _ => (State.Reports.refl s).testCharacterLeft) fun _ => .refl s
  · exact .refl s

theorem frameSent_reports (h : execFrameSent l s = .next t) : s.Reports t := by
  obtain rfl := Host.Outcome.next.inj h
  refine .ite (fun _ => .refl s) fun _ => ?_
  split
  · exact .ite (fun _ => (State.Reports.refl s).exchangeFrameLeft) fun _ => .refl s
  · exact .ite (fun _ => (State.Reports.refl s).testFrameLeft.testAwaits) fun _ => .refl s
  · exact .refl s

/-- Every row of the table is orderly. -/
theorem exec_orderly (i : Instr) (h : exec i s = .next t) : s.Orderly t := by
  have reports := State.Reports.refl s
  have guarded {p : Prop} [Decidable p] {u : State} (hu : s.Reports u) : s.Orderly (if p then u else s) :=
    .ite (fun _ => hu.orderly) fun _ => .refl s
  have aside {u : State} (hq : u.queue = s.queue) (hc : u.link.session = s.link.session) : s.Reports u :=
    reports.of_eq hq hc
  cases i
  case hostFrameEnd => exact hostFrameEnd_orderly h
  case driverRelease => exact (driverRelease_reports h).orderly
  case characterSent => exact (characterSent_reports h).orderly
  case frameSent => exact (frameSent_reports h).orderly
  all_goals obtain rfl := Host.Outcome.next.inj h
  case powerOn => exact .of_empty
  case powerOnResetEnd => exact guarded (aside rfl rfl)
  case byteDiscarded => exact guarded (aside rfl rfl)
  case hostFrameDiscarded => exact guarded (aside rfl rfl)
  case hostFrameGapTimeout => exact guarded (aside rfl rfl)
  case requestArrival =>
    refine .ite (fun _ => ?_) fun _ => .refl s
    exact ((returnFromStall_orderly (seekHost s)).of_eq).then (State.Reports.refl _).arrive
  case ack => exact .ite (fun _ => (ack_orderly _ (seekHost s)).of_eq) fun _ => .refl s
  case identify => exact takeRequest_reports (fun _ u => .refl u) s
  case openSession => exact takeRequest_orderly applyOpenSession_orderly s
  case closeSession => exact takeRequest_orderly applyCloseSession_orderly s
  case restart => exact takeRequest_orderly (fun _ _ => .aside) s
  case restartTaken => exact .ite (fun _ => .of_empty) fun _ => .refl s
  case readLinkStatus => exact takeRequest_reports applyReadLinkStatus_reports s
  case readQueueStatus => exact takeRequest_reports (fun _ u => .refl u) s
  case defineStation => exact takeRequest_reports applyDefineStation_reports s
  case modifyStation => exact takeRequest_reports applyModifyStation_reports s
  case removeStation => exact takeRequest_reports applyRemoveStation_reports s
  case enableStation => exact takeRequest_reports applyEnableStation_reports s
  case disableStation => exact takeRequest_reports applyDisableStation_reports s
  case readStation => exact takeRequest_reports applyReadStation_reports s
  case clearStationErrors =>
    exact takeRequest_reports (fun _ u => withStation_reports fun _ _ => (State.Reports.refl u).setStation) s
  case requestPoll => exact takeRequest_reports applyRequestPoll_reports s
  case submitCommand => exact takeRequest_reports applySubmitCommand_reports s
  case submitBroadcast => exact takeRequest_reports applySubmitBroadcast_reports s
  case cancelCommand => exact takeRequest_reports applyCancelCommand_reports s
  case setLineMode => exact takeRequest_reports applySetLineMode_reports s
  case configureLine => exact takeRequest_reports applyConfigureLine_reports s
  case resetLine => exact takeRequest_reports applyResetLine_reports s
  case startScan => exact takeRequest_reports applyStartScan_reports s
  case cancelScan => exact takeRequest_reports applyCancelScan_reports s
  case startLineTest => exact takeRequest_reports applyStartLineTest_reports s
  case readLineStatus => exact takeRequest_reports applyReadLineStatus_reports s
  case clearLineCounters =>
    have cleared (u : State) (l : LineId) : u.Reports (countLine l (fun _ => .zero) u) :=
      (State.Reports.refl u).countLine
    exact takeRequest_reports (fun _ u => withLine_reports (cleared u)) s
  case setOutputs => exact takeRequest_reports (applyMask_reports true) s
  case clearOutputs => exact takeRequest_reports (applyMask_reports false) s
  case assignOutput => exact takeRequest_reports applyAssignOutput_reports s
  case ctsFall => exact (startHostFrame_orderly _).of_eq
  case ctsRise => exact .aside
  case hostTransmitStart => exact startHostFrame_orderly s
  case ackTimerExpiry => exact .ite (fun h => expireAckTimer_orderly h.1 h.2) fun _ => .refl s
  case helloTimerExpiry =>
    refine guarded (aside rfl ?_)
    simp only [expireHelloTimer, State.onLink_link]
    split <;> rfl
  case schedulerChoice => exact guarded reports.choose
  case guardEnd =>
    split
    · exact .refl s
    next x _ =>
      have driven (f : Line → Line) (l : LineId) : s.Reports (s.onLine l f) := reports.onLine
      exact State.Reports.orderly (.ite (fun _ => (driven _ _).enterGap) fun _ => (driven _ _).onLine)
  case replyStartTimeout =>
    split
    · exact .refl s
    · exact State.Reports.orderly (.ite (fun _ => reports.endRollCall) fun _ => reports.failAttempt)
  case gapExpiry =>
    split
    · exact .refl s
    · exact reports.expireGap.orderly
  case addressCharacterReceived => exact reports.characterEvent.orderly
  case lengthAbandon => exact reports.characterEvent.orderly
  case strayCharacter => exact reports.characterEvent.orderly
  case frameReceived => exact reports.characterEvent.orderly
  case frameCharacterReceived => exact reports.characterEvent.orderly
  case intercharacterTimeout =>
    split
    · exact .refl s
    · exact reports.abandonFrame.orderly
  case pollTimerExpiry => exact reports.onStation.orderly
  case holdoffTimerExpiry => exact reports.onStation.orderly
  case probeTimerExpiry => exact reports.onStation.orderly
  case stuckRaised => exact guarded reports.takeStuck
  case stuckCleared => exact guarded reports.onLine.raiseLineNotice
  case testAwaitTimeout =>
    split
    · exact .refl s
    · exact reports.judgeTest.orderly
  case testGapExpiry =>
    split
    · exact .refl s
    next t _ =>
      have next (l : LineId) : s.Reports (nextTestFrame l t s) := reports.onLine
      exact (next _).orderly
  case noticeDrain => exact guarded reports.drainOne
  case startBitAccepted => exact guarded reports.onLine
  case glitch => exact guarded reports.countLine
  case receiveInputLevelChange => exact reports.onLine.orderly
  case hostByteReceived => exact guarded (aside rfl rfl)
  case hostStartBitAccepted => exact .ite (fun _ => .refl s) fun _ => .aside
  case unknownRequestCode =>
    split
    · exact .refl s
    · exact guarded (aside rfl rfl)

/-- A millisecond counts on the acknowledgement timer, which runs on. -/
theorem tick_orderly (s : State) : s.Orderly (tick s) := by
  refine .of_session fun hf => { hf with timer := fun ht => hf.timer ?_ }
  simpa [tick, tickTimer] using ht

/-- Every step is orderly. -/
theorem step_orderly (h : step s = .next t) : s.Orderly t := by
  unfold step at h
  split at h
  · unfold idle at h
    split at h
    · exact exec_orderly _ h
    · obtain rfl := Host.Outcome.next.inj h
      exact tick_orderly s
  · exact (exec_orderly _ h).of_eq

end

/-- Settles O54. -/
theorem everyStepKeepsTheNumbering : Obligations.EveryStepKeepsTheNumbering := fun _ _ hn h =>
  (step_orderly h).numbered hn

/-- Settles O56: the queue, within its 128 slots (R146), has distinct numbers. -/
theorem everyStepKeepsTheSession : Obligations.EveryStepKeepsTheSession := by
  intro s t numbered reserved sound h
  have slots : s.queue.entries.length ≤ 128 :=
    (Nat.le_add_right ..).trans (State.reserved_iff.1 reserved).1.load
  rw [State.sessionSound_iff] at sound ⊢
  exact (step_orderly h).session (numbered.nodup slots) sound

end Sys2Proof.Machine
end

section
/-! PROOF. ACK (R157, R174): the entries it removes, and a stray one. -/

namespace Sys2Proof.Machine

/-- R182: a 16-bit field that carries a word, low byte first. -/
theorem u16At_word (h : Half) : u16At [lowByte h, highByte h] 0 = h.toNat := by
  show (lowByte h).toNat + 256 * (highByte h).toNat = h.toNat
  simp only [lowByte, highByte, BitVec.toNat_setWidth, BitVec.toNat_ushiftRight, Nat.shiftRight_eq_div_pow]
  omega

section
variable {s : State} {n : Half}

/-- R165, R174: the last byte of an ACK frame of number n, outside STALLED. -/
theorem exec_ack {bytes : List Byte} {timer : Option Nat} {byte number : Byte} (hr : s.inReset = false)
    (hw : s.link.awaitsMark = false) (ha : s.link.assembler = some ⟨bytes, timer⟩)
    (hs : s.link.session.state ≠ .stalled)
    (hf : 0xA5#8 :: (bytes ++ [byte]) = hostFrame 0x02#8 number [lowByte n, highByte n]) :
    exec (.ack byte) s = .next (takeAck n (seekHost s)) := by
  obtain ⟨-, -, body, -⟩ := hostFrame_read (body := [lowByte n, highByte n]) (show 2 ≤ 64 by decide) hf
  have frame : completedHostFrame byte s = bytes ++ [byte] := by simp only [completedHostFrame, ha]
  have names : ackNumber (completedHostFrame byte s) = n := by
    rw [ackNumber, frame, body, u16At_word, BitVec.ofNat_toNat, BitVec.setWidth_eq]
  have ends := (hostByteIs_of_seeking hr hw).2 (Link.classify_ack rfl ha hf)
  refine congrArg Host.Outcome.next ((if_pos ends).trans ?_)
  rw [names, returnFromStall_of_ne (s := seekHost s) hs]

theorem takeAck_of_sent {e : Entry} (he : e ∈ s.queue.entries) (hn : e.seq = n) (sent : e.sent = true) :
    takeAck n s = acknowledge n s :=
  if_pos (List.any_eq_true.2 ⟨e, he, by simp [hn, sent]⟩)

theorem sentNumber_eq_false {q : ReportQueue} (h : ∀ x ∈ q.entries, x.sent = true → x.seq ≠ n) :
    sentNumber q n = false := by simpa [sentNumber] using h

end

/-- Settles O9. -/
theorem acknowledgementsRemoveEntries : Obligations.AcknowledgementsRemoveEntries := by
  intro s bytes timer byte number n hr hw ha hs hf
  rw [exec_ack hr hw ha hs hf]
  have removes {old rest : List Entry} {e : Entry} (hq : s.queue.entries = old ++ e :: rest) (he : e.seq = n)
      (sent : e.sent = true) (ho : ∀ x ∈ old, x.seq ≠ n) :
      takeAck n (seekHost s) = acknowledge n (seekHost s) ∧ dropThrough n (seekHost s).queue.entries = rest :=
    ⟨takeAck_of_sent (hq ▸ List.mem_append_cons_self) he sent, (congrArg _ hq).trans (dropThrough_append he ho)⟩
  refine ⟨fun old e rest hq he sent ho more => ?_, fun old e rest hq he sent ho none => ?_, fun stray => ?_⟩
  · obtain ⟨taken, left⟩ := removes hq he sent ho
    rw [taken, acknowledge_of_more left more]
    rfl
  · obtain ⟨taken, left⟩ := removes hq he sent ho
    rw [taken, acknowledge_of_last left none]
    rfl
  · rw [takeAck_of_stray (s := seekHost s) (sentNumber_eq_false stray)]
    rfl

end Sys2Proof.Machine
end

section
/-! PROOF. OPEN_SESSION and CLOSE_SESSION (R148, R159, R171, R172), and what IDENTIFY, READ_LINK_STATUS and
READ_QUEUE_STATUS are answered with (R160, R166, R179, R186). -/

namespace Sys2Proof.Machine

/-! ### The report queue, counted -/

/-- R148. -/
theorem ReportQueue.oldestSeq_eq (q : ReportQueue) :
    q.oldestSeq = (q.entries.head?.map (·.seq)).getD q.seqCounter := by
  unfold ReportQueue.oldestSeq
  cases q.entries <;> rfl

/-- R149. -/
theorem ReportQueue.unsentCount_eq (q : ReportQueue) :
    q.unsentCount = q.entries.length - (q.entries.filter (·.sent)).length := by
  have split := List.length_eq_length_filter_add (l := q.entries) (·.sent)
  simp only [ReportQueue.unsentCount]
  omega

/-- R150. -/
theorem Line.exchangeHolds_eq (ln : Line) : ln.exchangeHolds = ln.exchange.any (·.holdsReservation) := by
  unfold Line.exchangeHolds
  cases ln.exchange <;> rfl

/-- R1: the station table by its numbers. -/
theorem stations_toList (s : State) : s.stations.toList = (List.range 48).map s.station :=
  List.ext_getElem (by simp) fun i hi _ => by
    have hi : i < 48 := by simpa using hi
    simp [State.station, hi]

/-- R160: the stations with their notice flag set, by number. -/
theorem stationNotices_eq (s : State) :
    stationNotices s = ((List.range 48).filter fun n => (s.station n).any (·.notice)).length := by
  rw [stationNotices, stations_toList, List.filter_map, List.length_map]
  congr 2
  funext n
  show _ = (s.station n).any _
  simp only [Function.comp]
  cases s.station n <;> rfl

/-! ### The sessions -/

/-- R182: a flag byte, set when it is not 0. -/
theorem flagAt_eq {body : List Byte} {offset : Nat} {flag : Byte} (h : u8At body offset = flag.toNat) :
    flagAt body offset = decide (flag ≠ 0) := by
  have zero : flag = 0 ↔ flag.toNat = 0 := by bv_omega
  rw [flagAt, h, decide_eq_decide]
  exact not_congr zero.symm

section
variable {s : State} {r : Request} {rest : List Request}

/-- R168: a request taken in every session state is answered as its owner answers. -/
theorem takeRequest_anytime {code : Nat} {apply : List Byte → State → Applied} {t : State} {st : Status} {d : List Byte}
    (h : AtHead s r rest) (hc : requestCode r.body = some code) (hl : lengthFits r.body = true) (h4 : code ≠ 4)
    (ha : apply r.body (headTaken rest s) = ⟨t, some ⟨st, d⟩⟩) : takeRequest code true apply s = answered r st d t := by
  rw [takeRequest_handed h hc hl (.inr rfl) (by rw [ha]) h4, ha]

/-- R171, R159: what the steps of OPEN_SESSION leave. -/
theorem openSession_eq (window timeout : Nat) (discard : Bool) (s : State) :
    openSession window timeout discard s =
      { s with
        queue := { s.queue with
          entries := if discard then [] else s.queue.entries.map fun e => { e with sent := false } }
        link := { s.link with
          session := { state := .opened, window, timeout, retransmissions := 0, ackTimer := none, run := none }
          helloRepeat := false, helloTimer := none, helloWaiting := false } } := by
  cases discard <;> rfl

/-- R171, R148: what OPEN_SESSION is answered with, its values in range. -/
theorem applyOpenSession_of_inRange {body : List Byte}
    (h : 1 ≤ u8At body 1 ∧ u8At body 1 ≤ 16 ∧ 50 ≤ u16At body 2 ∧ u16At body 2 ≤ 5000) :
    applyOpenSession body s =
      let t := openSession (u8At body 1) (u16At body 2) (flagAt body 4) s
      let oldest := (t.queue.entries.head?.map (·.seq)).getD t.queue.seqCounter
      ⟨t, some ⟨.ok, [lowByte oldest, highByte oldest]⟩⟩ := by
  refine (if_pos h).trans ?_
  simp only [le16_toNat, ReportQueue.oldestSeq_eq]

end

/-- Settles O12. -/
theorem sessionsOpenAndClose : Obligations.SessionsOpenAndClose := by
  refine ⟨fun s r rest window low high flag h hb => ?_, fun s r rest h hb => ?_⟩
  · intro timeout inRange entries oldest
    have hc : requestCode r.body = some 0x02 := by rw [hb]; rfl
    have hl : lengthFits r.body = true := by rw [hb]; rfl
    have hwindow : u8At r.body 1 = window.toNat := by rw [hb]; rfl
    have htimeout : u16At r.body 2 = timeout := by rw [hb]; rfl
    have hflag : flagAt r.body 4 = decide (flag ≠ 0) := flagAt_eq (by rw [hb]; rfl)
    have kept :
        (if decide (flag ≠ 0) then [] else s.queue.entries.map fun e => { e with sent := false }) = entries := by
      simp only [entries, decide_eq_true_eq, ite_not]
    refine ⟨fun bad => ?_, fun good => ?_⟩
    · refine congrArg Host.Outcome.next (takeRequest_anytime h hc hl (by decide) (if_neg ?_))
      rwa [hwindow, htimeout]
    · refine congrArg Host.Outcome.next (takeRequest_anytime h hc hl (by decide) ?_)
      rw [applyOpenSession_of_inRange (by rwa [hwindow, htimeout]), openSession_eq, hwindow, htimeout, hflag,
        headTaken_queue, kept]
      rfl
  · have hc : requestCode r.body = some 0x03 := by rw [hb]; rfl
    have hl : lengthFits r.body = true := by rw [hb]; rfl
    exact congrArg Host.Outcome.next (takeRequest_of_apply h hc hl (by decide) rfl)

/-! ### The layouts -/

theorem positionCode_eq (p : Option Half) : positionCode p = (p.map (·.toNat)).getD 0 := by cases p <;> rfl

/-- Settles O15. -/
theorem identityAndStatusAreReturned : Obligations.IdentityAndStatusAreReturned := by
  refine ⟨fun s r rest h hb => ?_, fun s r rest flag h hb => ?_, fun s r rest h hb => ?_⟩
  · have hc : requestCode r.body = some 0x01 := by rw [hb]; rfl
    have hl : lengthFits r.body = true := by rw [hb]; rfl
    exact congrArg Host.Outcome.next (takeRequest_anytime h hc hl (by decide) rfl)
  · intro k c state bit data
    have hc : requestCode r.body = some 0x05 := by rw [hb]; rfl
    have hl : lengthFits r.body = true := by rw [hb]; rfl
    have hflag : flagAt r.body 1 = decide (flag ≠ 0) := flagAt_eq (by rw [hb]; rfl)
    have layout : linkStatusData k = data := by
      have code : c.state.code = state := by
        simp only [state]
        cases c.state <;> rfl
      simp only [linkStatusData, data, linkCounterBytes, timerCode_eq, positionCode_eq, ← code, List.append_assoc]
      rfl
    refine ⟨rfl, congrArg Host.Outcome.next (takeRequest_of_apply h hc hl (by decide) ?_)⟩
    rw [applyReadLinkStatus, hflag, show (headTaken rest s).link = k from rfl, layout]
    by_cases hf : flag = 0
    · rw [if_pos hf, if_neg (by simp [hf])]
      rfl
    · rw [if_neg hf, if_pos (decide_eq_true hf)]
      rfl
  · intro q count sent oldest notices data
    have hc : requestCode r.body = some 0x06 := by rw [hb]; rfl
    have hl : lengthFits r.body = true := by rw [hb]; rfl
    have layout : queueStatusData (headTaken rest s) = data := by
      have holds : Line.exchangeHolds = fun ln => ln.exchange.any (·.holdsReservation) :=
        funext Line.exchangeHolds_eq
      simp only [queueStatusData, holds, ReportQueue.unsentCount_eq, ReportQueue.oldestSeq_eq, stationNotices_eq]
      rfl
    refine ⟨rfl, congrArg Host.Outcome.next (takeRequest_of_apply h hc hl (by decide) ?_)⟩
    rw [applyReadQueueStatus, layout]

end Sys2Proof.Machine
end

end

/- These declarations too are elaborated one after another. -/
section
set_option Elab.async false

section
/-! PROOF. What becomes of a request at the head of the intake: its refusal (R168, R184), its waiting (R170), and
RESTART's answer (R180). -/

namespace Sys2Proof.Machine

section
variable {s t : State} {r : Request} {rest : List Request}

/-! ### RESTART (R180) -/

/-- R168, R169: a response that carries a restart is queued and cached as any other. -/
theorem respond_restarting (r : Request) (st : Status) (d : List Byte) (s : State) :
    respond r ⟨st, d⟩ true s =
      (answered r st d s).onLink fun k =>
        { k with responses := s.link.responses ++ [⟨r.number, st.code :: d, true⟩] } := by
  rw [← respond_eq_answered]
  rfl

/-- R180: RESTART's own response carries the restart. -/
theorem takeRequest_restart {apply : List Byte → State → Applied} {rep : Reply} (h : Handed s r rest)
    (hc : requestCode r.body = some 0x04) (hl : lengthFits r.body = true)
    (ha : apply r.body (headTaken rest s) = ⟨t, some rep⟩) : takeRequest 0x04 false apply s = respond r rep true t := by
  have taken : s.onLink (fun k => { k with intake := rest }) = headTaken rest s := rfl
  have opened : (headTaken rest s).link.session.state ≠ .closed := h.2
  obtain ⟨head, -⟩ := h.1
  simp only [takeRequest, head, canTake_of_atHead h.1, hc, taken, hl, opened, ha, and_self, false_and, if_true,
    if_false, Bool.not_true, Bool.false_eq_true, decide_true]

/-! ### The rows of the request codes (R168, R184) -/

/-- R168, R184: the row of a known code takes a request of that code, in CLOSED only when it is IDENTIFY or
OPEN_SESSION; any other code has no length, and the row UNKNOWN_REQUEST_CODE. -/
theorem rowOfCode_cases (code : Option Nat) :
    (∃ n inClosed apply, code = some n
        ∧ (∀ s, exec (rowOfCode code) s = .next (takeRequest n inClosed apply s))
        ∧ (n ≠ 0x01 → n ≠ 0x02 → inClosed = false))
      ∨ (rowOfCode code = .unknownRequestCode ∧ ∀ body, requestCode body = code → requestLength body = none) := by
  unfold rowOfCode
  split
  case h_29 =>
    refine .inr ⟨rfl, ?_⟩
    rintro body rfl
    unfold requestLength
    split
    case h_1 | h_30 => rfl
    all_goals contradiction
  all_goals exact .inl ⟨_, _, _, rfl, fun _ => rfl, by decide⟩

/-- R168, R184: an unknown code, or an empty body. -/
theorem exec_unknownRequestCode (h : AtHead s r rest) (hl : requestLength r.body = none) :
    exec .unknownRequestCode s = .next (refusedWith r rest .badRequest s) := by
  have head := h.1
  simp only [exec, execUnknownRequestCode, head, canTake_of_atHead h, hl, and_self, if_true]
  exact congrArg Host.Outcome.next (respond_eq_answered r .badRequest [] _)

theorem exec_unknownRequestCode_of_waits (h : s.link.canTake = false) : exec .unknownRequestCode s = .next s := by
  refine congrArg Host.Outcome.next ?_
  split
  · rfl
  · exact if_neg (by simp [h])

/-- R168, R170, R180: what keeps the head of the intake waiting. -/
theorem canTake_of_waiting
    (h : 8 ≤ s.link.responses.length + (if s.link.held.isSome then 1 else 0) ∨ s.link.restartWaiting = true
      ∨ s.link.held.isSome) : s.link.canTake = false := by
  have size : Config.responseQueueSize = 8 := rfl
  rcases h with h | h | h
  · have full : s.link.responseRoom = false := decide_eq_false (by omega)
    simp [Link.canTake, full]
  · simp [Link.canTake, h]
  · simp [Link.canTake, Option.isNone_eq_false_iff.2 h]

end

/-- Settles O13. -/
theorem restartWaitsForItsResponse : Obligations.RestartWaitsForItsResponse := by
  intro s r rest h hb
  have hc : requestCode r.body = some 0x04 := by rw [hb]; rfl
  have hl : lengthFits r.body = true := by rw [hb]; rfl
  refine ⟨_, rfl, congrArg Host.Outcome.next ((takeRequest_restart h hc hl rfl).trans ?_)⟩
  exact respond_restarting r .ok [] _

/-- Settles O11, by the rows of the codes. -/
theorem requestsWaitOrAreRefused : Obligations.RequestsWaitOrAreRefused := by
  refine ⟨fun s r rest h => ⟨fun unfit => ?_, exec_unknownRequestCode h, fun fits closed h1 h2 => ?_⟩,
    fun s code waiting => ?_⟩
  · rcases rowOfCode_cases (requestCode r.body) with ⟨n, inClosed, apply, hc, row, -⟩ | ⟨row, none⟩
    · have hl : lengthFits r.body = false := by simpa [lengthFits] using unfit
      rw [row, takeRequest_unfit h hc hl]
    · rw [row, exec_unknownRequestCode h (none _ rfl)]
  · rcases rowOfCode_cases (requestCode r.body) with ⟨n, inClosed, apply, hc, row, opens⟩ | ⟨-, none⟩
    · have hl : lengthFits r.body = true := by simpa [lengthFits] using fits
      have refuses : inClosed = false := opens (by rintro rfl; exact h1 hc) (by rintro rfl; exact h2 hc)
      rw [row, refuses, takeRequest_noSession h hc hl closed]
    · simp [none _ rfl] at fits
  · have waits := canTake_of_waiting waiting
    rcases rowOfCode_cases code with ⟨n, inClosed, apply, -, row, -⟩ | ⟨row, -⟩
    · rw [row, takeRequest_waits waits]
    · rw [row, exec_unknownRequestCode_of_waits waits]

end Sys2Proof.Machine
end

section
/-! PROOF. Host frames received (R162 to R167, R176): those discarded, the end of a stall, the REQUEST's four tests, and
a whole REQUEST frame from its bytes and from its levels. -/

namespace Sys2Proof.Machine

/-! ### Frames discarded (R164, R165) -/

section
variable {length byte : Byte} {rest : List Byte}

/-- R164: a frame is whole when LENGTH plus 2 bytes have followed LENGTH. -/
theorem hostFrameComplete_of_whole (h : rest.length + 1 = length.toNat + 2) :
    hostFrameComplete (length :: rest ++ [byte]) = true := by
  simp [hostFrameComplete, u8At]
  omega

/-- R163: the CRC covers LENGTH through BODY. -/
theorem hostCrcMatches_of_whole (h : rest.length + 1 = length.toNat + 2) :
    hostCrcMatches (length :: rest ++ [byte]) = true ↔
      (rest ++ [byte]).drop length.toNat =
        [lowByte (crc16 (length :: rest.take length.toNat)), highByte (crc16 (length :: rest.take length.toNat))] := by
  have covered : (rest ++ [byte]).take length.toNat = rest.take length.toNat :=
    List.take_append_of_le_length (by omega)
  simp [hostCrcMatches, u8At, covered]

/-- R163: KIND is the byte after LENGTH. -/
theorem hostKind_of_whole (h : rest.length + 1 = length.toNat + 2) {kind : Byte} :
    (length :: rest ++ [byte]).getD 1 0 = kind ↔ rest.head? = some kind := by
  cases rest with
  | nil => simp at h
  | cons first rest => simp

/-- R163: BODY is LENGTH minus 2 bytes. -/
theorem hostBody_length_of_whole (h : rest.length + 1 = length.toNat + 2) :
    (hostBody (length :: rest ++ [byte])).length = length.toNat - 2 := by
  simp [hostBody, u8At]
  omega

end

section
variable {k : Link} {p : HostPartial} {byte : Byte} {fe : Bool}

theorem Link.classify_framingError (ha : k.assembler = some p) : k.classify byte true = .frameDiscarded := by
  simp [Link.classify, ha]

theorem Link.classify_badLength (ha : k.assembler = some p) (hn : p.bytes = [])
    (hl : byte.toNat < 2 ∨ 66 < byte.toNat) : k.classify byte fe = .frameDiscarded := by
  cases fe <;> simp only [Link.classify, ha, hn, hl, and_self, if_true, Bool.false_eq_true, if_false]

/-- R165: a whole frame that is no valid one. -/
theorem Link.classify_invalid (ha : k.assembler = some p) (hn : p.bytes ≠ [])
    (hc : hostFrameComplete (p.bytes ++ [byte]) = true)
    (h : hostCrcMatches (p.bytes ++ [byte]) = true → (p.bytes ++ [byte]).getD 1 0 ≠ 0x01#8
      ∧ ((p.bytes ++ [byte]).getD 1 0 = 0x02#8 → (hostBody (p.bytes ++ [byte])).length ≠ 2)) :
    k.classify byte fe = .frameDiscarded := by
  cases fe with
  | true => exact Link.classify_framingError ha
  | false =>
    by_cases crc : hostCrcMatches (p.bytes ++ [byte]) = true
    · obtain ⟨request, ack⟩ := h crc
      simp only [Link.classify, ha, hn, hc, crc, request, not_and.2 ack, false_and, Bool.not_true, Bool.false_eq_true,
        if_false]
    · simp [Link.classify, ha, hn, hc, crc]

end

/-- Settles O6. -/
theorem hostFramesAreDiscarded : Obligations.HostFramesAreDiscarded := by
  refine ⟨fun s p byte fe hr hw ha h => ?_, fun s p ha ht => ?_⟩
  · have discarded : s.link.classify byte fe = .frameDiscarded := by
      rcases h with rfl | ⟨hn, hl⟩ | ⟨length, rest, hb, whole, bad⟩
      · exact Link.classify_framingError ha
      · exact Link.classify_badLength ha hn hl
      · refine Link.classify_invalid ha (by simp [hb]) (by rw [hb]; exact hostFrameComplete_of_whole whole) ?_
        rw [hb, hostCrcMatches_of_whole whole, Ne, hostKind_of_whole whole, hostKind_of_whole whole,
          hostBody_length_of_whole whole]
        intro crc
        rcases bad with bad | ⟨request, ack⟩ | ⟨ack, hl⟩
        · exact absurd crc bad
        · exact ⟨request, fun h => absurd h ack⟩
        · exact ⟨by simp [ack], fun _ => by omega⟩
    exact congrArg Host.Outcome.next (if_pos ((hostByteIs_of_seeking hr hw).2 discarded))
  · exact congrArg Host.Outcome.next (if_pos (by simpa [hostGapRuns, ha] using ht))

/-! ### Valid frames (R165, R176) -/

section
variable {s : State} {bytes : List Byte} {timer : Option Nat} {byte number : Byte} {body : List Byte}

/-- R165, R167, R176: the last byte of a REQUEST frame. -/
theorem exec_requestArrival (hr : s.inReset = false) (hw : s.link.awaitsMark = false)
    (ha : s.link.assembler = some ⟨bytes, timer⟩) (hb : body.length ≤ 64)
    (hf : 0xA5#8 :: (bytes ++ [byte]) = hostFrame 0x01#8 number body) :
    exec (.requestArrival byte) s =
      .next (arrive ⟨number, crc16 (b8 (body.length + 2) :: 0x01#8 :: number :: body), body⟩
        (returnFromStall (seekHost s))) := by
  obtain ⟨-, -, hbody, -, hnumber, hcrc⟩ := hostFrame_read hb hf
  have ends := (hostByteIs_of_seeking hr hw).2 (Link.classify_request hb ha hf)
  refine congrArg Host.Outcome.next ((if_pos ends).trans ?_)
  simp only [completedHostFrame, ha, requestOf, hbody, hnumber, hcrc]

/-- R165, R174, R176: the last byte of an ACK frame, in every session state. -/
theorem exec_ack_taken (hr : s.inReset = false) (hw : s.link.awaitsMark = false)
    (ha : s.link.assembler = some ⟨bytes, timer⟩) (hb : body.length = 2)
    (hf : 0xA5#8 :: (bytes ++ [byte]) = hostFrame 0x02#8 number body) :
    exec (.ack byte) s = .next (takeAck (ackNumber (bytes ++ [byte])) (returnFromStall (seekHost s))) := by
  have ends := (hostByteIs_of_seeking hr hw).2 (Link.classify_ack hb ha hf)
  refine congrArg Host.Outcome.next ((if_pos ends).trans ?_)
  simp only [completedHostFrame, ha]

end

/-- Settles O8: the stall ends before the frame is looked at. -/
theorem validFramesEndAStall : Obligations.ValidFramesEndAStall := by
  intro s bytes timer byte number body hr hw ha hs reopened
  have opened : (seekHost reopened).link.session.state ≠ .stalled := nofun
  have returns : returnFromStall (seekHost s) = returnFromStall (seekHost reopened) := by
    rw [returnFromStall_of_ne opened, returnFromStall_of_stalled (s := seekHost s) hs]
    rfl
  refine ⟨fun hf hb => ?_, fun hf hb => ?_⟩
  · rw [exec_requestArrival hr hw ha hb hf, exec_requestArrival (s := reopened) hr hw ha hb hf, returns]
  · rw [exec_ack_taken hr hw ha hb hf, exec_ack_taken (s := reopened) hr hw ha hb hf, returns]

/-! ### The four tests (R167) -/

section
variable {s : State} {r : Request}

theorem arrive_of_cached {e : CacheEntry} (h : cachedFor r s = some e) :
    arrive r s = countLink LinkCounters.countDuplicate (queueIfRoom ⟨r.number, e.body, false⟩ s) := by
  simp only [arrive, h]

theorem arrive_of_waiting (hc : cachedFor r s = none) (hw : waitsAlready r s = true) :
    arrive r s = countLink LinkCounters.countDuplicate s := by
  simp only [arrive, hc, hw, if_true]

/-- R167, R170: BACKOFF is queued and counted, or dropped. -/
theorem arrive_of_fullIntake (hc : cachedFor r s = none) (hw : waitsAlready r s = false)
    (hi : 4 ≤ s.link.intake.length) :
    arrive r s =
      if s.link.responseRoom then
        countLink LinkCounters.countBackoff (queueIfRoom ⟨r.number, [0x02#8], false⟩ s)
      else queueIfRoom ⟨r.number, [0x02#8], false⟩ s := by
  have size : Config.intakeSize ≤ s.link.intake.length := hi
  simp only [arrive, hc, hw, size, if_true, Bool.false_eq_true, if_false]
  rfl

theorem arrive_of_roomyIntake (hc : cachedFor r s = none) (hw : waitsAlready r s = false)
    (hi : s.link.intake.length < 4) : arrive r s = s.onLink fun k => { k with intake := k.intake ++ [r] } := by
  have size : ¬Config.intakeSize ≤ s.link.intake.length := Nat.not_le.2 hi
  simp only [arrive, hc, hw, size, Bool.false_eq_true, if_false]

theorem waitsAlready_iff :
    waitsAlready r s = true ↔ ∃ q ∈ s.link.intake ++ s.link.held.toList, q.number = r.number ∧ q.crc = r.crc := by
  simp only [waitsAlready, List.any_eq_true, Bool.and_eq_true, beq_iff_eq]

end

/-- Settles O7, by the four tests. -/
theorem requestsArriveAtTheIntake : Obligations.RequestsArriveAtTheIntake := by
  intro s bytes timer byte number body hr hw ha hb hf hs r k room cached waits duplicate dropped
  have arrives : exec (.requestArrival byte) s = .next (arrive r (seekHost s)) := by
    rw [exec_requestArrival hr hw ha hb hf, returnFromStall_of_ne (s := seekHost s) hs]
  have free (h : room) : (seekHost s).link.responseRoom = true := decide_eq_true h
  have full (h : ¬room) : (seekHost s).link.responseRoom = false := decide_eq_false h
  have fresh (h : ¬waits) : waitsAlready r (seekHost s) = false :=
    Bool.eq_false_iff.2 fun hw => h (waitsAlready_iff.1 hw)
  rw [arrives]
  refine ⟨fun e hc h => ?_, fun e hc h => ?_, fun hc h => ?_, fun hc hn hi h => ?_, fun hc hn hi h => ?_,
    fun hc hn hi => ?_⟩
  · rw [arrive_of_cached (s := seekHost s) hc, queueIfRoom_of_room (free h)]
    rfl
  · rw [arrive_of_cached (s := seekHost s) hc, queueIfRoom_of_full (full h)]
    rfl
  · rw [arrive_of_waiting (s := seekHost s) hc (waitsAlready_iff.2 h)]
    rfl
  · rw [arrive_of_fullIntake (s := seekHost s) hc (fresh hn) hi, if_pos (free h), queueIfRoom_of_room (free h)]
    rfl
  · rw [arrive_of_fullIntake (s := seekHost s) hc (fresh hn) hi, if_neg (by simp [full h]),
      queueIfRoom_of_full (full h)]
    rfl
  · rw [arrive_of_roomyIntake (s := seekHost s) hc (fresh hn) hi]
    rfl

/-! ### The row that a character's samples name (R162, R164, R165) -/

/-- R162: the samples of a character's data bits and stop bit give the byte and the framing error back. -/
theorem receivedHostCharacter_samples (byte : Byte) (fe : Bool) :
    receivedHostCharacter (dataBits byte ++ [!fe]) = (byte, fe) := by
  have data : (dataBits byte ++ [!fe]).take 8 = dataBits byte := List.take_left' (dataBits_length byte)
  have stop : (dataBits byte ++ [!fe]).getD 8 true = !fe := by
    rw [List.getD_append_right _ _ _ _ (by simp), dataBits_length]
    rfl
  rw [receivedHostCharacter, data, stop, dataByte_dataBits, Bool.not_not]

/-- R164, R165: the row of a byte of a class. -/
def HostByteClass.row (byte : Byte) (fe : Bool) : HostByteClass → Instr
  | .discarded => .byteDiscarded byte fe
  | .added => .hostByteReceived byte
  | .frameDiscarded => .hostFrameDiscarded byte fe
  | .request => .requestArrival byte
  | .ack => .ack byte

theorem hostReceipt_of_seeking {s : State} (hr : s.inReset = false) (hw : s.link.awaitsMark = false) (byte : Byte)
    (fe : Bool) : s.hostReceipt (dataBits byte ++ [!fe]) = some ((s.link.classify byte fe).row byte fe) := by
  have seeks : s.hostSeeksEdge = true := by simp [State.hostSeeksEdge, hr, hw]
  simp only [State.hostReceipt, receivedHostCharacter_samples, seeks, Bool.not_true, Bool.false_eq_true, if_false]
  cases s.link.classify byte fe <;> rfl

/-! ### A frame collected byte by byte (R164) -/

/-- R164: the host link in COLLECTING, with these bytes after SYNC and the gap timer just started. -/
def collecting (bytes : List Byte) (s : State) : State :=
  s.onLink fun k => { k with assembler := some ⟨bytes, some 10⟩ }

theorem exec_hostByteReceived {s : State} {byte : Byte} (hr : s.inReset = false) (hw : s.link.awaitsMark = false)
    (h : s.link.classify byte false = .added) : exec (.hostByteReceived byte) s = .next (addHostByte byte s) :=
  congrArg Host.Outcome.next (if_pos ((hostByteIs_of_seeking hr hw).2 h))

theorem addHostByte_of_seeking {s : State} (ha : s.link.assembler = none) (byte : Byte) :
    addHostByte byte s = collecting [] s := by
  simp only [addHostByte, State.onLink, ha]
  rfl

theorem addHostByte_collecting (bytes : List Byte) (byte : Byte) (s : State) :
    addHostByte byte (collecting bytes s) = collecting (bytes ++ [byte]) s := rfl

/-- R164: short of its last byte, every byte of a host frame is added to it. -/
theorem classify_collecting {s : State} {bytes more body : List Byte} {byte kind number : Byte}
    (hb : body.length ≤ 64) (hf : 0xA5#8 :: (bytes ++ byte :: more) = hostFrame kind number body) (hm : more ≠ []) :
    (collecting bytes s).link.classify byte false = .added := by
  simp only [hostFrame, List.cons_append, List.cons.injEq, true_and] at hf
  have whole : bytes.length + 1 + more.length = body.length + 5 := by
    have := congrArg List.length hf
    simp at this
    omega
  have short : 0 < more.length := List.length_pos_iff.2 hm
  have counts : (b8 (body.length + 2)).toNat = body.length + 2 := by
    simp [b8]
    omega
  refine Link.classify_added rfl ?_ ?_
  · rintro rfl
    obtain ⟨rfl, -⟩ := List.cons.inj hf
    omega
  · cases bytes with
    | nil => exact hostFrameComplete_length byte
    | cons length rest =>
      obtain ⟨rfl, -⟩ := List.cons.inj hf
      refine hostFrameComplete_of_short ?_
      rw [List.length_cons] at whole
      omega

/-- R164: a step that adds the bytes of class added collects a host frame up to its last byte. -/
theorem foldlM_collecting {s : State} {take : State → Byte → Option State}
    (adds : ∀ t byte, t.inReset = false → t.link.awaitsMark = false → t.link.classify byte false = .added →
      take t byte = some (addHostByte byte t))
    (hr : s.inReset = false) (hw : s.link.awaitsMark = false) {kind number last : Byte} {body : List Byte}
    (hb : body.length ≤ 64) (added : List Byte) {bytes : List Byte}
    (hf : 0xA5#8 :: (bytes ++ (added ++ [last])) = hostFrame kind number body) :
    added.foldlM take (collecting bytes s) = some (collecting (bytes ++ added) s) := by
  induction added generalizing bytes with
  | nil => simp
  | cons byte added ih =>
    have short := classify_collecting (s := s) hb hf (by simp)
    have rest : 0xA5#8 :: (bytes ++ [byte] ++ (added ++ [last])) = hostFrame kind number body := by simpa using hf
    rw [List.foldlM_cons, adds (collecting bytes s) byte hr hw short, addHostByte_collecting, Option.bind_eq_bind,
      Option.bind_some, ih rest, List.append_assoc, List.singleton_append]

/-- R164: from SEEKING, SYNC included. -/
theorem foldlM_front {s : State} {take : State → Byte → Option State}
    (adds : ∀ t byte, t.inReset = false → t.link.awaitsMark = false → t.link.classify byte false = .added →
      take t byte = some (addHostByte byte t))
    (hr : s.inReset = false) (hw : s.link.awaitsMark = false) (ha : s.link.assembler = none)
    {kind number last : Byte} {body front : List Byte} (hb : body.length ≤ 64)
    (hf : hostFrame kind number body = front ++ [last]) :
    ∃ added, front = 0xA5#8 :: added ∧ front.foldlM take s = some (collecting added s) := by
  cases front with
  | nil => simp [hostFrame] at hf
  | cons sync added =>
    obtain rfl : 0xA5#8 = sync := (List.cons.inj hf).1
    refine ⟨added, rfl, ?_⟩
    rw [List.foldlM_cons, adds s _ hr hw (Link.classify_sync ha), addHostByte_of_seeking ha]
    exact foldlM_collecting adds hr hw hb added hf.symm

/-- R167: with nothing cached or waiting for it and a place free, the REQUEST collected joins the intake's tail. -/
theorem exec_requestArrival_collecting {s : State} {number last : Byte} {body added : List Byte} {r : Request}
    (hr : s.inReset = false) (hw : s.link.awaitsMark = false) (ha : s.link.assembler = none) (hb : body.length ≤ 64)
    (hs : s.link.session.state ≠ .stalled) (hf : 0xA5#8 :: (added ++ [last]) = hostFrame 0x01#8 number body)
    (hq : r = ⟨number, crc16 (b8 (body.length + 2) :: 0x01#8 :: number :: body), body⟩)
    (uncached : cachedFor r s = none) (new : waitsAlready r s = false) (roomy : s.link.intake.length < 4) :
    exec (.requestArrival last) (collecting added s) =
      .next { s with link := { s.link with intake := s.link.intake ++ [r] } } := by
  have sought : seekHost (collecting added s) = s := by
    simp only [seekHost, collecting, State.onLink, ← ha]
  rw [exec_requestArrival (s := collecting added s) hr hw rfl hb hf, sought, returnFromStall_of_ne hs, ← hq,
    arrive_of_roomyIntake uncached new roomy]
  rfl

/-- Settles O10: the frame's bytes are collected by either kind of step, and its last one arrives. -/
theorem hostRequestFramesReachTheIntake : Obligations.HostRequestFramesReachTheIntake := by
  unfold Obligations.HostRequestFramesReachTheIntake
  intro ran
  refine ⟨fun byte => ⟨rfl, receivedHostCharacter_samples byte false⟩,
    fun s byte fe => ⟨fun h => ?_, fun hr hw ha => ?_, fun hr hw ha hfe => ?_⟩, ?_⟩
  · exact hostReceipt_of_not_seeking (by rcases h with h | h <;> simp [State.hostSeeksEdge, h]) _
  · refine (hostReceipt_of_seeking hr hw byte fe).trans (congrArg some ?_)
    split
    case isTrue sync =>
      obtain ⟨rfl, rfl⟩ := sync
      exact congrArg _ (Link.classify_sync ha)
    case isFalse other =>
      exact congrArg _ (Link.classify_seeking_discarded ha (by simpa [or_iff_not_imp_left] using other))
  · obtain ⟨p, hp⟩ := Option.isSome_iff_exists.1 ha
    refine (hostReceipt_of_seeking hr hw byte fe).trans ?_
    rw [hfe, Link.classify_framingError hp]
    rfl
  · intro s number body front last hr hw ha hb hs hf r fresh idle roomy
    have runs {c : Instr} {t u : State} (h : exec c t = .next u) : ran c t = some u := by simp only [ran, h]
    have named {c : HostByteClass} {t : State} {byte : Byte} (hr : t.inReset = false)
        (hw : t.link.awaitsMark = false) (h : t.link.classify byte false = c) :
        (t.hostReceipt ((hostCharacterLevels byte).drop 1) >>= fun i => ran i t) = ran (c.row byte false) t :=
      congrArg (· >>= fun i => ran i t) (h ▸ hostReceipt_of_seeking hr hw byte false)
    have adds (t : State) (byte : Byte) (hr : t.inReset = false) (hw : t.link.awaitsMark = false)
        (h : t.link.classify byte false = .added) : ran (.hostByteReceived byte) t = some (addHostByte byte t) :=
      runs (exec_hostByteReceived hr hw h)
    have uncached : cachedFor r s = none := List.find?_eq_none.2 fun e he => by simpa using fresh e he
    have new : waitsAlready r s = false :=
      Bool.eq_false_iff.2 fun h => by
        obtain ⟨q, hq, same⟩ := waitsAlready_iff.1 h
        exact idle q hq same
    have arrives {added : List Byte} (hf : hostFrame 0x01#8 number body = 0xA5#8 :: added ++ [last]) :=
      runs (exec_requestArrival_collecting hr hw ha hb hs hf.symm rfl uncached new roomy)
    refine ⟨?_, ?_⟩
    · obtain ⟨added, rfl, collects⟩ := foldlM_front adds hr hw ha hb hf
      rw [collects]
      exact arrives hf
    · obtain ⟨added, rfl, collects⟩ :=
        foldlM_front (fun t byte hr hw h => (named hr hw h).trans (adds t byte hr hw h)) hr hw ha hb hf
      have whole : (collecting added s).link.classify last false = .request := Link.classify_request hb rfl hf.symm
      rw [List.foldlM_append, collects]
      simp only [Option.bind_eq_bind, Option.bind_some, List.foldlM_cons, List.foldlM_nil, Option.pure_def,
        Option.bind_fun_some]
      exact (named (t := collecting added s) hr hw whole).trans (arrives hf)

end Sys2Proof.Machine
end

section
/-! PROOF. The end of a host frame, CTS_RISE, and the acknowledgement and HELLO timers (R175, R177, R178). -/

namespace Sys2Proof.Machine

section
variable {s : State} {f : HostFrame}

theorem exec_hostFrameEnd_of_plain (hf : s.link.sending = some f) (hk : f.kind = .response ∨ f.kind = .hello) :
    exec .hostFrameEnd s = .next (startHostFrame (endHostFrame s)) := by
  refine congrArg Host.Outcome.next ?_
  rcases hk with hk | hk <;> simp only [hf, hk]

theorem exec_hostFrameEnd_of_report (hf : s.link.sending = some f) (hk : f.kind = .report) :
    exec .hostFrameEnd s = .next (startHostFrame (restartAckTimer (endHostFrame s))) := by
  refine congrArg Host.Outcome.next ?_
  simp only [hf, hk]

/-- R175: the acknowledgement timer after a report frame. -/
theorem restartAckTimer_eq (s : State) :
    restartAckTimer s = s.onSession fun c =>
      { c with
        ackTimer :=
          if s.link.session.state = .opened ∧ ∃ e ∈ s.queue.entries, e.sent = true then some c.timeout
          else c.ackTimer } := by
  have sent : 0 < s.queue.sentCount ↔ ∃ e ∈ s.queue.entries, e.sent = true := by
    rw [ReportQueue.sentCount_eq, sentOf_pos]
  rw [restartAckTimer]
  simp only [sent]
  split <;> rfl

theorem exec_ackTimerExpiry (ho : s.link.session.state = .opened) (ht : s.link.session.ackTimer.isSome) :
    exec .ackTimerExpiry s = .next (expireAckTimer s) :=
  congrArg Host.Outcome.next (if_pos ⟨ht, ho⟩)

end

/-- Settles O32. -/
theorem hostFramesEndAndLinkTimersExpire : Obligations.HostFramesEndAndLinkTimersExpire := by
  refine ⟨fun s => ⟨rfl, fun hn => ?_, fun f hf hk hc => ?_, fun f hf => ⟨fun hk => ?_, fun hk => ?_⟩⟩,
    fun s => ⟨fun ho ht hr => ?_, fun ho ht hr => ?_, fun ht => ?_⟩⟩
  · refine congrArg Host.Outcome.next ?_
    simp only [hn]
  · rw [exec_hostFrameEnd_of_plain hf hk, startHostFrame_of_not (s := endHostFrame s) (.inl hc)]
    rfl
  · rw [exec_hostFrameEnd_of_plain hf hk]
    rfl
  · rw [exec_hostFrameEnd_of_report hf hk, restartAckTimer_eq]
    rfl
  · rw [exec_ackTimerExpiry ho ht, expireAckTimer, if_pos hr]
    rfl
  · rw [exec_ackTimerExpiry ho ht, expireAckTimer, if_neg (by omega)]
    rfl
  · exact congrArg Host.Outcome.next (if_pos ht)

end Sys2Proof.Machine
end

end

section
/-! PROOF. The CONTROL character, the codes of the tables and the sticky error set (R33, R188). -/

namespace Sys2Proof.Machine

/-! ### The CONTROL character sent -/

/-- R188: what CONTROL holds above the kind and the toggle. -/
theorem controlByte_highBits {code : Nat} (h : code < 16) (toggle resync : Bool) :
    (controlByte code toggle resync).getLsbD 5 = resync ∧ (controlByte code toggle resync).getLsbD 6 = false
      ∧ (controlByte code toggle resync).getLsbD 7 = false := by
  have : ∀ c < 16, (controlByte c toggle resync).getLsbD 5 = resync ∧ (controlByte c toggle resync).getLsbD 6 = false
      ∧ (controlByte c toggle resync).getLsbD 7 = false := by
    cases toggle <;> cases resync <;> decide
  exact this code h

/-- R188: CONTROL bit by bit: the kind, the toggle, the resync mark, and two bits at 0. -/
theorem controlByte_fields {code : Nat} (h : code < 16) (toggle resync : Bool) :
    let control := controlByte code toggle resync
    control.toNat % 16 = code ∧ control.getLsbD 4 = toggle ∧ control.getLsbD 5 = resync ∧ control.getLsbD 6 = false
      ∧ control.getLsbD 7 = false :=
  have low := controlByte_read h toggle resync
  ⟨low.1, low.2, controlByte_highBits h toggle resync⟩

theorem sentKindCode_lt (kind : ExchangeKind) : sentKindCode kind < 16 := by cases kind <;> decide

/-! ### The CONTROL character received -/

/-- R188: bits 7 and 6 of CONTROL replaced; the other six are those received. -/
theorem getLsbD_upperBitsReplaced (control high : Byte) {i : Nat} (h : i < 6) :
    (control &&& 0x3F#8 ||| high &&& 0xC0#8).getLsbD i = control.getLsbD i := by
  have mask : ∀ j < 6, (0x3F#8).getLsbD j = true ∧ (0xC0#8).getLsbD j = false := by decide
  rw [BitVec.getLsbD_or, BitVec.getLsbD_and, BitVec.getLsbD_and, (mask i h).1, (mask i h).2, Bool.and_true,
    Bool.and_false, Bool.or_false]

/-- R188: the kind code is a matter of bits 3 to 0 alone. -/
theorem toNat_mod_16_congr {x y : Byte} (h : ∀ i < 4, x.getLsbD i = y.getLsbD i) : x.toNat % 16 = y.toNat % 16 := by
  have low : x.setWidth 4 = y.setWidth 4 := by
    refine BitVec.eq_of_getLsbD_eq fun i hi => ?_
    rw [BitVec.getLsbD_setWidth, BitVec.getLsbD_setWidth, h i hi]
  simpa using congrArg BitVec.toNat low

/-- R32, R36: of a complete frame, the CRC is compared with that of every byte before it. -/
theorem HandedUp.crcMatches_of_covered (address control : Byte) (rest crc : List Byte) (framing : Bool)
    (abandoned : Option AbandonCause) (h : rest.length = 1 + (rest.getD 0 0).toNat) :
    let covered := address :: control :: rest
    (⟨covered ++ crc, framing, abandoned⟩ : HandedUp).crcMatches
      = (crc == [highByte (crc16 covered), lowByte (crc16 covered)]) := by
  intro covered
  have length : 3 + (⟨covered ++ crc, framing, abandoned⟩ : HandedUp).length = covered.length := by
    have third : (covered ++ crc).getD 2 0 = rest.getD 0 0 := List.getD_append _ _ _ _ (by simp [covered]; omega)
    simp only [HandedUp.length, u8At, third, covered, List.length_cons, h]
    omega
  rw [HandedUp.crcMatches, length, List.take_left, List.drop_left]

/-! ### Kinds unknown -/

/-- R33: the kinds a reply can have are those of codes 0x8 to 0xE. -/
theorem replyKind_eq_none {code length : Nat} (h : code < 0x8 ∨ 0xE < code) : replyKind code length = none := by
  refine Option.eq_none_iff_forall_ne_some.2 fun k hk => ?_
  obtain ⟨hcode, -⟩ := replyKind_eq_some.1 hk
  have range : 0x8 ≤ k.row.1 ∧ k.row.1 ≤ 0xE := by cases k <;> decide
  omega

/-- R49: the check of the kind, of a frame that passes the four before it. -/
theorem judge_of_unknownKind {kind : ExchangeKind} {target : Nat} {sent : Bool} {h : HandedUp}
    (hf : h.framing = false) (ha : h.abandoned = none) (hc : h.crcMatches = true) (ht : h.address.toNat = target)
    (hk : replyKind h.kindCode h.length = none) : judge kind target sent h = .fails .badKind := by
  simp [judge, hf, ha, hc, ht, hk]

/-- R132, R188: a capture carries the kind code and the toggle of CONTROL, whatever they are. -/
theorem captureReport_control (l : LineId) (address control : Byte) (rest : List Byte) (framing : Bool)
    (cause : Option AbandonCause) :
    ∃ length payload check,
      captureReport l ⟨address :: control :: rest, framing, cause⟩
        = .capture l address (some (control.toNat % 16)) (some (control.getLsbD 4)) length payload framing check
            cause.isSome := by
  have received : 1 < (address :: control :: rest).length := by simp
  exact ⟨_, _, _, by rw [captureReport, if_pos received, if_pos received]; rfl⟩

/-! ### The sticky error set and the mask -/

/-- R8, R186: the bit of a failure kind is its code less one. -/
theorem addSticky_getLsbD (set : Half) (k : FailureKind) (i : Nat) :
    (addSticky set k).getLsbD i = (set.getLsbD i || decide (i + 1 = k.code)) := by
  have code : 1 ≤ k.code ∧ k.code ≤ 16 := by cases k <;> decide
  have added : (1#16 <<< (k.code - 1)).getLsbD i = decide (i + 1 = k.code) := by
    refine (BitVec.getLsbD_twoPow (k.code - 1) i).trans ?_
    rw [Bool.eq_iff_iff]
    simp only [Bool.and_eq_true, decide_eq_true_iff]
    omega
  rw [addSticky, BitVec.getLsbD_or, added]

/-- R144: a latch takes the value exactly when its mask bit is 1. -/
theorem writeLatches_latch (s : State) (mask : Nat) (value : Bool) (i : Nat) (h : i < 4) :
    (writeLatches mask value s).outputs[i].latch = if mask.testBit i then value else s.outputs[i].latch := by
  rw [writeLatches_outputs mask value s h, apply_ite Output.latch]

/-- Settles O44: the fields of CONTROL, sent and received, then the codes, each table computed. -/
theorem codesFollowTheTables : Obligations.CodesFollowTheTables := by
  unfold Obligations.CodesFollowTheTables
  refine ⟨fun kind target toggle payload => ?exchangeControl, fun n => controlByte_fields (by decide) _ false,
    fun t p => ⟨rfl, rfl⟩, fun address control high rest framing cause => ?received,
    fun address control rest crc h => HandedUp.crcMatches_of_covered address control rest crc false none h,
    fun code hcode length l rest framing cause address control hcontrol => ?unknown,
    fun length low high => replyKind_eq_some.2 ⟨rfl, low, high⟩,
    fun length high => ⟨replyKind_eq_some.2 ⟨rfl, Nat.zero_le _, high⟩, replyKind_eq_some.2 ⟨rfl, Nat.zero_le _, high⟩⟩,
    rfl, rfl, rfl, fun n => rfl, rfl, rfl, rfl, rfl, rfl, rfl, rfl, rfl, rfl, rfl, rfl, fun report => ?reportKind,
    addSticky_getLsbD, rfl, rfl, writeLatches_latch⟩
  case exchangeControl =>
    have fields := controlByte_fields (sentKindCode_lt kind) toggle (kind == .probe)
    cases kind <;> exact fields
  case reportKind => cases report <;> rfl
  case received =>
    have same (i : Nat) (h : i < 6) := getLsbD_upperBitsReplaced control high h
    exact ⟨rfl, rfl, rfl, toNat_mod_16_congr fun i h => same i (by omega), same 4 (by decide), same 5 (by decide)⟩
  case unknown =>
    have range : code < 0x8 ∨ 0xE < code := by
      have : ∀ c ∈ [0x0, 0x6, 0x7, 0xF, 0x1, 0x2, 0x3, 0x4, 0x5], c < 0x8 ∨ 0xE < c := by decide
      exact this code hcode
    subst hcontrol
    refine ⟨replyKind_eq_none range, ?_, captureReport_control l address control rest framing cause⟩
    intro kind sent target crc covered ht hl hcrc
    have good : (⟨covered ++ crc, false, none⟩ : HandedUp).crcMatches = true := by
      rw [HandedUp.crcMatches_of_covered address control rest crc false none hl, hcrc]
      exact beq_self_eq_true _
    exact judge_of_unknownKind rfl rfl good ht (replyKind_eq_none range)

end Sys2Proof.Machine
end

section
/-! SUPPORT. The commands waiting (O1, O3) stand aside of every operation of the part: each keeps them as they are. -/

namespace Sys2Proof.Machine

theorem State.pending_ite {s : State} {p : Prop} [Decidable p] {t u : State} (ht : t.pending = s.pending)
    (hu : u.pending = s.pending := by rfl) : (if p then t else u).pending = s.pending := by
  split
  · exact ht
  · exact hu

section
variable (s : State) (l : LineId) (n : Nat) (x : Exchange)

/-- What takes no account of the rest of the part keeps the commands waiting. -/
theorem pending_of_framed {f : State → State} (h : f (s.framed s) = (f s).framed s) : (f s).pending = s.pending :=
  calc (f s).pending = (f (s.framed s)).pending := rfl
    _ = ((f s).framed s).pending := congrArg State.pending h

/-! ### Stations and records -/

@[simp] theorem completeAllOf_pending (o : CommandOutcome) : (completeAllOf n o s).pending = s.pending :=
  completeRecords_pending ..

@[simp] theorem leaveProbeLists_pending : (leaveProbeLists n s).pending = s.pending := rfl

@[simp] theorem enterProbing_pending : (enterProbing n s).pending = s.pending :=
  pending_of_framed s (enterProbing_framed ..)

@[simp] theorem enterDisabled_pending : (enterDisabled n s).pending = s.pending := State.onStation_pending ..

@[simp] theorem disableTakesEffect_pending : (disableTakesEffect n s).pending = s.pending :=
  pending_of_framed s (disableTakesEffect_framed ..)

@[simp] theorem onNamed_pending (f : Station → Station) : (onNamed x f s).pending = s.pending :=
  pending_of_framed s (onNamed_framed ..)

@[simp] theorem onCarried_pending (f : CommandRecord → CommandRecord) : (onCarried x f s).pending = s.pending := by
  unfold onCarried
  split <;> rfl

@[simp] theorem completeCarried_pending (o : CommandOutcome) (d : List Byte) :
    (completeCarried x o d s).pending = s.pending := by
  unfold completeCarried
  split
  · rfl
  · split <;> simp

@[simp] theorem releaseHeld_pending : (releaseHeld x s).pending = s.pending :=
  pending_of_framed s (releaseHeld_framed ..)

@[simp] theorem giveBack_pending : (giveBack x s).pending = s.pending := pending_of_framed s (giveBack_framed ..)

/-! ### The exchange engine -/

@[simp] theorem countLine_pending (f : LineCounters → LineCounters) : (countLine l f s).pending = s.pending :=
  State.onLine_pending ..

@[simp] theorem raiseLineNotice_pending (c : LineCause) : (raiseLineNotice l c s).pending = s.pending :=
  State.onLine_pending ..

@[simp] theorem onExchange_pending (f : Exchange → Exchange) : (onExchange l f s).pending = s.pending :=
  State.onLine_pending ..

@[simp] theorem decideOutcome_pending (o : ExchangeOutcome) : (decideOutcome l o s).pending = s.pending :=
  onExchange_pending ..

@[simp] theorem enterGap_pending : (enterGap l s).pending = s.pending := State.onLine_pending ..

@[simp] theorem endScan_pending (status : ScanStatus) : (endScan l status s).pending = s.pending :=
  pending_of_framed s (endScan_framed ..)

@[simp] theorem rollCallResult_pending (present : Bool) : (rollCallResult l present s).pending = s.pending :=
  pending_of_framed s (rollCallResult_framed ..)

@[simp] theorem beginAttempt_pending : (beginAttempt l x s).pending = s.pending := by simp [beginAttempt]

@[simp] theorem startExchange_pending (kind : ExchangeKind) (station : Option Nat) (target : Nat) (tag : Option Half)
    (holds toggle : Bool) (payload : List Byte) :
    (startExchange l kind station target tag holds toggle payload s).pending = s.pending := by simp [startExchange]

@[simp] theorem exchangeFailed_pending : (exchangeFailed l x s).pending = s.pending := by
  unfold exchangeFailed
  cases x.kind <;> simp

@[simp] theorem recordFailedAttempt_pending (k : FailureKind) : (recordFailedAttempt l x k s).pending = s.pending := by
  simp [recordFailedAttempt]

@[simp] theorem failAttempt_pending (k : FailureKind) : (failAttempt l k s).pending = s.pending := by
  unfold failAttempt
  split
  · rfl
  · dsimp only
    split <;> simp

@[simp] theorem endRollCall_pending (present : Bool) : (endRollCall l present s).pending = s.pending := by
  simp [endRollCall]

@[simp] theorem acceptData_pending (d : List Byte) : (acceptData x d s).pending = s.pending := by
  unfold acceptData
  split <;> simp

@[simp] theorem acceptProbe_pending (k : ReplyKind) (d : List Byte) : (acceptProbe l x k d s).pending = s.pending := by
  unfold acceptProbe
  split <;> simp

@[simp] theorem acceptPoll_pending (k : ReplyKind) (d : List Byte) : (acceptPoll l x k d s).pending = s.pending := by
  unfold acceptPoll
  split <;> simp

@[simp] theorem acceptCommand_pending (o : CommandOutcome) (d : List Byte) :
    (acceptCommand x o d s).pending = s.pending := by simp [acceptCommand]

@[simp] theorem busyDisposition_pending (streak : Nat) : (busyDisposition l x streak s).pending = s.pending := by
  unfold busyDisposition
  split
  · simp
  · exact giveBack_pending s x

@[simp] theorem acceptCommandBusy_pending : (acceptCommandBusy l x s).pending = s.pending := by
  unfold acceptCommandBusy
  split
  · rfl
  · split <;> simp

@[simp] theorem acceptReply_pending (k : ReplyKind) (d : List Byte) : (acceptReply l x k d s).pending = s.pending := by
  unfold acceptReply
  split <;> simp

@[simp] theorem judgeReply_pending (h : HandedUp) : (judgeReply l h s).pending = s.pending := by
  unfold judgeReply
  split
  · rfl
  · split
    · rfl
    · split <;> simp

@[simp] theorem endExchange_pending : (endExchange l s).pending = s.pending :=
  pending_of_framed s (endExchange_framed ..)

@[simp] theorem cutOff_pending : (cutOff l s).pending = s.pending := pending_of_framed s (cutOff_framed ..)

@[simp] theorem exchangeFrameLeft_pending : (exchangeFrameLeft l x s).pending = s.pending := by
  unfold exchangeFrameLeft
  dsimp only
  split <;> simp

/-! ### Capture, line tests, modes and resets -/

@[simp] theorem captureFrame_pending (h : HandedUp) : (captureFrame l h s).pending = s.pending := by
  unfold captureFrame
  split <;> simp

@[simp] theorem endTest_pending (status : TestStatus) : (endTest l status s).pending = s.pending :=
  pending_of_framed s (endTest_framed ..)

@[simp] theorem judgeTest_pending (matched : Bool) : (judgeTest l matched s).pending = s.pending := by
  unfold judgeTest
  split
  · rfl
  · exact State.pending_ite (by simp) (by simp)

@[simp] theorem testHandedUp_pending (h : HandedUp) : (testHandedUp l h s).pending = s.pending := by
  unfold testHandedUp
  split
  · rfl
  · split <;> simp

@[simp] theorem testAwaits_pending : (testAwaits l s).pending = s.pending := by
  unfold testAwaits
  dsimp only
  split <;> simp

@[simp] theorem handUp_pending (h : HandedUp) : (handUp l h s).pending = s.pending := by
  unfold handUp
  split <;> simp

@[simp] theorem changeMode_pending (m : LineMode) : (changeMode l m s).pending = s.pending :=
  pending_of_framed s (changeMode_framed ..)

@[simp] theorem resetLineNow_pending : (resetLineNow l s).pending = s.pending :=
  pending_of_framed s (resetLineNow_framed ..)

/-! ### The receiver of a line -/

@[simp] theorem receiveCharacter_pending (fe : Bool) : (receiveCharacter l fe s).pending = s.pending :=
  State.onLine_pending ..

@[simp] theorem holdPartial_pending (chars : List Byte) (framing : Bool) :
    (holdPartial l chars framing s).pending = s.pending := State.onLine_pending ..

@[simp] theorem beginFrame_pending (byte : Byte) (fe : Bool) : (beginFrame l byte fe s).pending = s.pending := by
  unfold beginFrame
  split <;> simp [beginReply]

@[simp] theorem abandonFrame_pending (chars : List Byte) (framing : Bool) (cause : AbandonCause) :
    (abandonFrame l chars framing cause s).pending = s.pending := by simp [abandonFrame]

@[simp] theorem completeFrame_pending (chars : List Byte) (framing : Bool) :
    (completeFrame l chars framing s).pending = s.pending := by simp [completeFrame]

@[simp] theorem takeCharacter_pending (k : CharacterClass) (byte : Byte) (fe : Bool) :
    (takeCharacter l k byte fe s).pending = s.pending := by
  cases k with
  | stray => exact State.onLine_pending ..
  | begins | added | tooLong | completes => simp [takeCharacter]

@[simp] theorem characterEvent_pending (k : CharacterClass) (byte : Byte) (mark fe : Bool) :
    (characterEvent l k byte mark fe s).pending = s.pending := by
  unfold characterEvent
  split <;> simp

@[simp] theorem deliverLoop_pending : (deliverLoop l s).pending = s.pending := by
  unfold deliverLoop
  split
  · rfl
  · split <;> simp

@[simp] theorem testCharacterLeft_pending : (testCharacterLeft l s).pending = s.pending := by simp [testCharacterLeft]

@[simp] theorem testFrameLeft_pending : (testFrameLeft l s).pending = s.pending := by simp [testFrameLeft]

@[simp] theorem completeShift_pending : (completeShift l s).pending = s.pending := by
  unfold completeShift
  split
  · split <;> simp
  · split <;> simp
  · rfl

@[simp] theorem takeStuck_pending : (takeStuck l s).pending = s.pending := by
  have raised : (raiseStuck l s).pending = s.pending := by simp [raiseStuck]
  unfold takeStuck
  dsimp only
  split
  · unfold stuckInMonitor
    split <;> simp [raised]
  · simp [raised]

/-! ### The scheduler, the transmitter and the notices -/

@[simp] theorem takeRollCall_pending (sc : Scan) (address : Nat) :
    (takeRollCall l sc address s).pending = s.pending := by
  simp [takeRollCall]

@[simp] theorem takeRecord_pending (r : CommandRecord) : (takeRecord l r s).pending = s.pending := by
  unfold takeRecord
  dsimp only
  split
  · simp
  · split <;> simp

@[simp] theorem takePoll_pending : (takePoll l n s).pending = s.pending := by
  unfold takePoll
  split <;> simp

@[simp] theorem takeProbe_pending : (takeProbe l n s).pending = s.pending := by
  unfold takeProbe
  split <;> simp

@[simp] theorem chooseWork_pending : (chooseWork l s).pending = s.pending := by
  unfold chooseWork
  split
  · split <;> simp
  · split
    · split <;> simp
    · split
      · split <;> simp
      · rfl

@[simp] theorem choose_pending : (choose l s).pending = s.pending := by
  unfold choose
  split
  · simp
  · split
    · simp
    · split <;> simp

@[simp] theorem releaseDriver_pending : (releaseDriver l s).pending = s.pending := State.onLine_pending ..

@[simp] theorem endGuard_pending : (endGuard l x s).pending = s.pending := by
  unfold endGuard
  dsimp only
  split <;> simp

@[simp] theorem expireGap_pending : (expireGap l x s).pending = s.pending := by
  unfold expireGap
  split
  · simp
  · split <;> simp

@[simp] theorem drainLine_pending : (drainLine l s).pending = s.pending := State.onLine_pending ..

@[simp] theorem drainStation_pending : (drainStation n s).pending = s.pending := by
  unfold drainStation
  split <;> simp

@[simp] theorem drainOne_pending : (drainOne s).pending = s.pending := by
  unfold drainOne
  split
  · simp
  · split
    · simp
    · split <;> simp

/-! ### The host link -/

@[simp] theorem queueIfRoom_pending (r : Response) : (queueIfRoom r s).pending = s.pending := by
  unfold queueIfRoom
  split <;> rfl

@[simp] theorem arrive_pending (r : Request) : (arrive r s).pending = s.pending := by
  unfold arrive
  split
  · exact queueIfRoom_pending ..
  · split
    · rfl
    · split
      · dsimp only
        split <;> exact queueIfRoom_pending ..
      · rfl

@[simp] theorem returnFromStall_pending : (returnFromStall s).pending = s.pending := by
  unfold returnFromStall
  split <;> rfl

@[simp] theorem takeAck_pending (number : Half) : (takeAck number s).pending = s.pending := by
  unfold takeAck
  split
  · unfold acknowledge
    dsimp only
    split <;> rfl
  · rfl

@[simp] theorem startHostFrame_pending : (startHostFrame s).pending = s.pending := by
  unfold startHostFrame
  split
  · split
    · rfl
    · split
      · rfl
      · split <;> rfl
  · rfl

@[simp] theorem restartAckTimer_pending : (restartAckTimer s).pending = s.pending := by
  unfold restartAckTimer
  split <;> rfl

@[simp] theorem expireAckTimer_pending : (expireAckTimer s).pending = s.pending := by
  unfold expireAckTimer
  split <;> rfl

@[simp] theorem answerHeld_pending : (answerHeld s).pending = s.pending := by
  unfold answerHeld
  split <;> rfl

end

/-! ### Requests -/

/-- R168: the taking of a request keeps the commands waiting, as its owner does. -/
theorem takeRequest_pending {code : Nat} {inClosed : Bool} {apply : List Byte → State → Applied}
    (ha : ∀ body u, (apply body u).state.pending = u.pending) (s : State) :
    (takeRequest code inClosed apply s).pending = s.pending := by
  unfold takeRequest
  split
  · rfl
  · split
    · dsimp only
      split
      · rfl
      · split
        · rfl
        · split <;> exact ha ..
    · rfl

section
variable {s : State} {body : List Byte}

theorem Applied.pending_ite {p : Prop} [Decidable p] {a b : Applied} (ha : a.state.pending = s.pending)
    (hb : b.state.pending = s.pending) : (if p then a else b).state.pending = s.pending := by
  split
  · exact ha
  · exact hb

theorem withStation_pending {f : Nat → Station → Applied} (hf : ∀ n e, (f n e).state.pending = s.pending) :
    (withStation body s f).state.pending = s.pending := by
  refine Applied.pending_ite rfl ?_
  split
  · rfl
  · exact hf ..

theorem withLine_pending {f : LineId → Applied} (hf : ∀ l, (f l).state.pending = s.pending) :
    (withLine body s f).state.pending = s.pending := by
  unfold withLine
  split
  · rfl
  · exact hf _

theorem afterShift_pending {l : LineId} {ending : LineEnding} {now : State → State}
    (hn : (now s).pending = s.pending) : (afterShift l ending now s).state.pending = s.pending :=
  Applied.pending_ite (State.onLine_pending ..) hn

end

section
variable (body : List Byte) (s : State)

theorem applyOpenSession_pending : (applyOpenSession body s).state.pending = s.pending := by
  refine Applied.pending_ite ?_ rfl
  cases flagAt body 4 <;> rfl

theorem applyReadLinkStatus_pending : (applyReadLinkStatus body s).state.pending = s.pending := by
  unfold applyReadLinkStatus
  dsimp only
  split <;> rfl

theorem applyDefineStation_pending : (applyDefineStation body s).state.pending = s.pending := by
  unfold applyDefineStation
  split
  · rfl
  · refine Applied.pending_ite rfl (Applied.pending_ite rfl ?_)
    dsimp only [answer]
    split <;> simp

theorem applyModifyStation_pending : (applyModifyStation body s).state.pending = s.pending :=
  Applied.pending_ite rfl (withStation_pending fun _ _ => State.setStation_pending ..)

theorem applyRemoveStation_pending : (applyRemoveStation body s).state.pending = s.pending :=
  withStation_pending fun _ _ => Applied.pending_ite rfl (by simp [answer, removeStation])

theorem applyEnableStation_pending : (applyEnableStation body s).state.pending = s.pending :=
  withStation_pending fun _ _ => Applied.pending_ite (by simp [answer, enableStation]) (State.setStation_pending ..)

theorem applyDisableStation_pending : (applyDisableStation body s).state.pending = s.pending :=
  withStation_pending fun _ _ => Applied.pending_ite rfl
    (Applied.pending_ite (State.setStation_pending ..) (disableTakesEffect_pending ..))

theorem applyReadStation_pending : (applyReadStation body s).state.pending = s.pending := by
  refine Applied.pending_ite rfl ?_
  split <;> rfl

theorem applyClearStationErrors_pending : (applyClearStationErrors body s).state.pending = s.pending :=
  withStation_pending fun _ _ => State.setStation_pending ..

theorem applyRequestPoll_pending : (applyRequestPoll body s).state.pending = s.pending := by
  refine withStation_pending fun _ e => ?_
  cases e.state with
  | online | suspect => exact State.setStation_pending ..
  | disabled | probing | offline => rfl

theorem applySubmitCommand_pending : (applySubmitCommand body s).state.pending = s.pending := by
  have submitted (n : Nat) (e : Station) : (submitForStation n e body s).state.pending = s.pending :=
    Applied.pending_ite rfl (Applied.pending_ite rfl (Applied.pending_ite rfl (Applied.pending_ite rfl rfl)))
  refine Applied.pending_ite rfl ?_
  split
  · rfl
  next e _ =>
    cases e.state with
    | disabled | offline => rfl
    | probing | online | suspect => exact submitted ..

theorem applySubmitBroadcast_pending : (applySubmitBroadcast body s).state.pending = s.pending := by
  unfold applySubmitBroadcast
  split
  · rfl
  · exact Applied.pending_ite rfl (Applied.pending_ite rfl (Applied.pending_ite rfl (Applied.pending_ite rfl rfl)))

theorem applyCancelCommand_pending : (applyCancelCommand body s).state.pending = s.pending := by
  unfold applyCancelCommand
  split
  · rfl
  next r _ =>
    cases r.state with
    | queued => exact completeRecord_pending ..
    | inFlight => rfl

theorem applySetLineMode_pending : (applySetLineMode body s).state.pending = s.pending := by
  refine withLine_pending fun l => ?_
  split
  · rfl
  · exact Applied.pending_ite rfl (afterShift_pending (changeMode_pending ..))

theorem applyConfigureLine_pending : (applyConfigureLine body s).state.pending = s.pending := by
  refine withLine_pending fun l => ?_
  split
  · rfl
  · exact Applied.pending_ite rfl (State.onLine_pending ..)

theorem applyResetLine_pending : (applyResetLine body s).state.pending = s.pending :=
  withLine_pending fun _ => afterShift_pending (resetLineNow_pending ..)

theorem applyStartScan_pending : (applyStartScan body s).state.pending = s.pending :=
  withLine_pending fun _ => Applied.pending_ite rfl (Applied.pending_ite rfl
    (Applied.pending_ite rfl (Applied.pending_ite rfl (State.onLine_pending ..))))

theorem applyCancelScan_pending : (applyCancelScan body s).state.pending = s.pending :=
  withLine_pending fun _ => Applied.pending_ite rfl (endScan_pending ..)

theorem applyStartLineTest_pending : (applyStartLineTest body s).state.pending = s.pending :=
  withLine_pending fun _ => Applied.pending_ite rfl (Applied.pending_ite rfl
    (Applied.pending_ite rfl (Applied.pending_ite rfl (by simp [answer, startTest]))))

theorem applyReadLineStatus_pending : (applyReadLineStatus body s).state.pending = s.pending := by
  refine withLine_pending fun l => ?_
  split
  · dsimp only
    split <;> rfl
  · rfl
  · rfl

theorem applyClearLineCounters_pending : (applyClearLineCounters body s).state.pending = s.pending :=
  withLine_pending fun _ => countLine_pending ..

theorem applyMask_pending (value : Bool) : (applyMask value body s).state.pending = s.pending :=
  Applied.pending_ite rfl rfl

theorem applyAssignOutput_pending : (applyAssignOutput body s).state.pending = s.pending := by
  unfold applyAssignOutput
  split
  · rfl
  · exact Applied.pending_ite rfl rfl

end

end Sys2Proof.Machine
end

section
/-! PROOF. The step: every command completes and keeps those behind it; the command at the front is taken; and with
nothing due a millisecond passes (About This Manual, Millisecond timers). -/

namespace Sys2Proof.Machine

/-! ### The rows -/

/-- No row of the table stops the part: each meaning is a next state. -/
theorem exec_completes (c : Instr) (s : State) : ∃ t, exec c s = .next t := by cases c <;> exact ⟨_, rfl⟩

section
variable {s t : State} {l : LineId}

theorem hostFrameEnd_pending (h : execHostFrameEnd s = .next t) : t.pending = s.pending := by
  obtain rfl := Host.Outcome.next.inj h
  split
  · rfl
  next f _ =>
    cases f.kind with
    | restartResponse => rfl
    | report => exact (startHostFrame_pending _).trans (restartAckTimer_pending _)
    | response | hello => exact startHostFrame_pending _

theorem driverRelease_pending (h : execDriverRelease l s = .next t) : t.pending = s.pending := by
  obtain rfl := Host.Outcome.next.inj h
  split <;> simp

theorem characterSent_pending (h : execCharacterSent l s = .next t) : t.pending = s.pending := by
  obtain rfl := Host.Outcome.next.inj h
  split
  · rfl
  · split
    · exact State.pending_ite (onExchange_pending ..)
    · exact State.pending_ite (testCharacterLeft_pending ..)
    · rfl

theorem frameSent_pending (h : execFrameSent l s = .next t) : t.pending = s.pending := by
  obtain rfl := Host.Outcome.next.inj h
  split
  · rfl
  · split
    · exact State.pending_ite (exchangeFrameLeft_pending ..)
    · exact State.pending_ite (by simp)
    · rfl

/-- Every row of the table keeps the commands waiting. -/
theorem exec_pending (c : Instr) (h : exec c s = .next t) : t.pending = s.pending := by
  cases c
  case hostFrameEnd => exact hostFrameEnd_pending h
  case driverRelease => exact driverRelease_pending h
  case characterSent => exact characterSent_pending h
  case frameSent => exact frameSent_pending h
  all_goals obtain rfl := Host.Outcome.next.inj h
  case powerOn | ctsRise => rfl
  case powerOnResetEnd | byteDiscarded | hostFrameDiscarded | hostFrameGapTimeout | restartTaken | hostByteReceived =>
    exact State.pending_ite rfl
  case requestArrival => exact State.pending_ite (by simp [seekHost])
  case ack => exact State.pending_ite (by simp [seekHost])
  case identify | readQueueStatus | closeSession | restart => exact takeRequest_pending (fun _ _ => rfl) s
  case openSession => exact takeRequest_pending applyOpenSession_pending s
  case readLinkStatus => exact takeRequest_pending applyReadLinkStatus_pending s
  case defineStation => exact takeRequest_pending applyDefineStation_pending s
  case modifyStation => exact takeRequest_pending applyModifyStation_pending s
  case removeStation => exact takeRequest_pending applyRemoveStation_pending s
  case enableStation => exact takeRequest_pending applyEnableStation_pending s
  case disableStation => exact takeRequest_pending applyDisableStation_pending s
  case readStation => exact takeRequest_pending applyReadStation_pending s
  case clearStationErrors => exact takeRequest_pending applyClearStationErrors_pending s
  case requestPoll => exact takeRequest_pending applyRequestPoll_pending s
  case submitCommand => exact takeRequest_pending applySubmitCommand_pending s
  case submitBroadcast => exact takeRequest_pending applySubmitBroadcast_pending s
  case cancelCommand => exact takeRequest_pending applyCancelCommand_pending s
  case setLineMode => exact takeRequest_pending applySetLineMode_pending s
  case configureLine => exact takeRequest_pending applyConfigureLine_pending s
  case resetLine => exact takeRequest_pending applyResetLine_pending s
  case startScan => exact takeRequest_pending applyStartScan_pending s
  case cancelScan => exact takeRequest_pending applyCancelScan_pending s
  case startLineTest => exact takeRequest_pending applyStartLineTest_pending s
  case readLineStatus => exact takeRequest_pending applyReadLineStatus_pending s
  case clearLineCounters => exact takeRequest_pending applyClearLineCounters_pending s
  case setOutputs | clearOutputs => exact takeRequest_pending (fun b u => applyMask_pending b u _) s
  case assignOutput => exact takeRequest_pending applyAssignOutput_pending s
  case ctsFall | hostTransmitStart => exact startHostFrame_pending _
  case ackTimerExpiry => exact State.pending_ite (expireAckTimer_pending s)
  case helloTimerExpiry => exact State.pending_ite rfl
  case schedulerChoice => exact State.pending_ite (choose_pending ..)
  case guardEnd =>
    split
    · rfl
    · exact endGuard_pending ..
  case replyStartTimeout =>
    split
    · rfl
    · split <;> simp
  case gapExpiry =>
    split
    · rfl
    · exact expireGap_pending ..
  case addressCharacterReceived | lengthAbandon | strayCharacter | frameReceived | frameCharacterReceived =>
    exact characterEvent_pending ..
  case intercharacterTimeout =>
    split
    · rfl
    · exact abandonFrame_pending ..
  case pollTimerExpiry | holdoffTimerExpiry | probeTimerExpiry => exact State.onStation_pending ..
  case stuckRaised => exact State.pending_ite (takeStuck_pending ..)
  case stuckCleared => exact State.pending_ite (by simp)
  case testAwaitTimeout =>
    split
    · rfl
    · exact judgeTest_pending ..
  case testGapExpiry =>
    split
    · rfl
    · exact State.onLine_pending ..
  case noticeDrain => exact State.pending_ite (drainOne_pending s)
  case startBitAccepted => exact State.pending_ite (State.onLine_pending ..)
  case glitch => exact State.pending_ite (countLine_pending ..)
  case receiveInputLevelChange => exact State.onLine_pending ..
  case hostStartBitAccepted => split <;> rfl
  case unknownRequestCode =>
    split
    · rfl
    · exact State.pending_ite rfl

end

/-- Settles O3, command by command. -/
theorem everyCommandCompletesAndKeepsTheQueue : Obligations.EveryCommandCompletesAndKeepsTheQueue := by
  intro c s
  obtain ⟨t, h⟩ := exec_completes c s
  exact ⟨t, h, exec_pending c h⟩

/-! ### The step -/

/-- Settles O1, by the step on a queue that is not empty. -/
theorem stepTakesTheFrontCommand : Obligations.StepTakesTheFrontCommand := by
  intro s c rest h
  rw [step, h]

/-- With no command waiting and nothing due, the step is a millisecond. -/
theorem step_of_idle {s : State} (hp : s.pending = []) (ho : ownStep s = none) : step s = .next (tick s) := by
  simp only [step, hp, idle, ho]

theorem tick_station (s : State) (n : Nat) : (tick s).station n = (s.station n).map Station.tick := by
  unfold State.station
  split <;> simp [tick]

/-- Settles O2: of the whole state a millisecond changes the running timers alone. -/
theorem idlePartCountsOneMillisecond : Obligations.IdlePartCountsOneMillisecond := fun s hp ho =>
  ⟨tick s, step_of_idle hp ho, tick_station s, rfl, rfl, rfl, rfl, rfl, rfl, rfl, rfl, hp⟩

end Sys2Proof.Machine
end
